-- ==== Sys2Proof/Word.lean ====
section
/-! DEFINITION. The machine's words: bytes and 32-bit register words (R9, R12). -/

namespace Sys2Proof

/-- One byte of memory, of a packet or of a record. -/
abbrev Byte := BitVec 8

/-- One aligned 32-bit register word (R12). -/
abbrev Word := BitVec 32

end Sys2Proof
end

