-- ==== Sys2Proof/Config.lean ====
section
/-! DEFINITION. What is fixed for one machine: the variant table of R17 and R22, and the values the manual leaves open
(each an opaque constant: no proof can see what it is). -/

namespace Sys2Proof

/-- The four part variants of R2 and R17. -/
inductive Variant where
  | m2x1 | m4x1 | m4x2 | m6x2
  deriving DecidableEq, Repr

/-- R17: HBM stacks populated. -/
def Variant.stacks : Variant → Nat
  | .m2x1 => 2
  | .m4x1 => 4
  | .m4x2 => 4
  | .m6x2 => 6

/-- R17: the X2 variants carry I/O die 1. -/
def Variant.isX2 : Variant → Bool
  | .m2x1 => false
  | .m4x1 => false
  | .m4x2 => true
  | .m6x2 => true

/-- R17: the package power limit, in W. -/
def Variant.powerLimit : Variant → Nat
  | .m2x1 => 155
  | .m4x1 => 170
  | .m4x2 => 180
  | .m6x2 => 190

/-- R22: one past the last byte of the HBM window. -/
def Variant.hbmEnd : Variant → Nat
  | .m2x1 => 0x0D00000000
  | .m4x1 => 0x1900000000
  | .m4x2 => 0x1900000000
  | .m6x2 => 0x2500000000

/-- R39, R225, R316, R333, R336: the manual states no rounding of a cosine or sine that lies between two values of its format; true
takes the one of greater magnitude. Free: arguments are the format's width, whether it is a sine, and the angle's code. -/
opaque Config.trigUp : Nat → Bool → Nat → Bool

/-- The cosine or sine of an angle that is not finite or not below 2^64 rad, as a code; the manual states none. Free, with the same
arguments. -/
opaque Config.trigOpen : Nat → Bool → Nat → BitVec 64

/-- R249: the number the Junesha die chooses for its n-th verdict. Free. -/
opaque Config.token : Nat → BitVec 32

/-- A free byte: the n-th byte whose value the manual does not promise. -/
opaque Config.freeByte : Nat → BitVec 8

/-- The byte that a read of a peer's address returns, or one that is refused (R21: no data is read), at the n-th free value: what the peer
holds is not this device's. Free. -/
opaque Config.remoteByte : Nat → Nat → BitVec 8

/-- A free 32-bit word: the n-th word whose value the manual does not state. -/
opaque Config.freeWord : Nat → BitVec 32

/-- R107, R128: the index that an operand takes from an empty claim register: open, a function of frame, task, step and register. -/
opaque Config.emptyClaim : Nat → Nat → Nat → Nat → BitVec 32

/-- R176: the larger and the smaller of two REAL32 values where the manual states none: with a NaN, or two zeros of
different sign. Free functions of the operands. -/
opaque Config.maxOpen : BitVec 32 → BitVec 32 → BitVec 32
opaque Config.minOpen : BitVec 32 → BitVec 32 → BitVec 32

/-- R391: vendor ID, product code, revision and serial number, and the running firmware versions, which each part
reports and the manual does not state. Free. -/
opaque Config.identity : Nat → BitVec 32
opaque Config.swVersion : Nat → BitVec 8
opaque Config.sdVersion : Nat → BitVec 8

/-- R85: whether the history cache holds a line, with so many of its ways for the BSEs; the hash of addresses to sets is not stated and
the lines that stay are not promised. Free: arguments are HS_WAYS in force, the line, and the number of the free value. -/
opaque Config.hcHit : Nat → Nat → Nat → Bool

/-- R22: the fixed hash that places each 256-byte line of HBM in a stack; the manual does not state it. Free. -/
opaque Config.hbmStack : Nat → Nat

/-- R272: whether the PCIe completion that the n-th free value goes with is poisoned. Free: the host decides. -/
opaque Config.tlpPoison : Nat → Bool

/-- R403: whether the n-th copy write that a transport's SAVE starts reads back valid. Free: the flash part decides. -/
opaque Config.flashOk : Nat → Bool

/-- R405: whether an image's key, signature and hash are good against the fused keys (Aedbaod's, or the Junesha die's where the
flag is set). Free: the fused keys are each part's own. -/
opaque Config.imageOk : Bool → List (BitVec 8) → Bool

/-- A random fault of the hardware: an error in an 8-byte granule of memory, single-bit or not (R82, R102), a packet received on a Kydor
port whose CRC fails, FEC codewords corrected there, and one that could not be (R412). -/
inductive Upset where
  | memory (granule : Nat) (double : Bool)
  | kydCrc (port : Fin 4)
  | fecCorr (port : Fin 4) (n : Nat)
  | fecUncorr (port : Fin 4)
  deriving DecidableEq, Repr

/-- Whether a random fault strikes in the tick of the n-th free value, and which. Free: the manual gives their effects, not their times. -/
opaque Config.upset : Nat → Option Upset

/-- R358: whether a fault of the comparator itself spoils the canary pair of frame `f`. Free: no rule says when the hardware is faulty. -/
opaque Config.canaryFault : Nat → Bool

end Sys2Proof
end

