-- ==== Sys2Proof/Syntax.lean ====
section
/-! DEFINITION. The commands: one constructor of `Instr` for each row of spec/opcode_table.json, with the row's operands.
A command that the manual ties to an instant carries `now`, the device time in ns at which it happens. -/

namespace Sys2Proof

/-- R12: who accesses a register: a PCIe endpoint, the management cluster, or a unit of the fabric. -/
inductive Requester where
  | pcie (e : Fin 2)
  | mgt
  | unit (n : Nat)
  deriving DecidableEq, Repr

/-- The units that execute tasks (R122). -/
inductive UnitId where
  | stn (s : Fin 32)
  | rbe (q : Fin 4)
  | gme (g : Fin 8)
  | bse (q : Fin 4)
  | dma (c : Fin 64)
  | sme
  | cre (c : Fin 2)
  | cle
  deriving DecidableEq, Repr

/-- How a fabric write was issued: a register-configured or host write (R112), or a step's write through a region slot
(R109, R111), with its SYNC_EN and whether its task owns the fed range it lands in. -/
inductive WriteSrc where
  | direct
  | slot (syncEn : Bool) (owner : Bool)
  deriving DecidableEq, Repr

/-- A fabric transaction's operation (R21). -/
inductive FabOp where
  | read (len : Nat)
  | write (data : List Byte) (src : WriteSrc)
  deriving DecidableEq, Repr

/-- The two BARs of R28. -/
inductive Bar where
  | bar0 | bar2
  deriving DecidableEq, Repr

/-- A write of one of the store-configuration registers (R90). -/
inductive HsReg where
  | cfg (v : Word)
  | base (v : BitVec 64)
  deriving DecidableEq, Repr

/-- The micro-architectural events met while one station step ran (R96, R160, R163, R165, R166): stall and wait cycles,
dry row-cycles, freezes, the conflicts at its ports, whether it had an access in a conflict that is counted with another step
(`joined`), and how many of its result rows it had written before the first cycle of a conflict (`clean`). -/
structure StepDyn where
  arbStall : Nat := 0
  conflicts : Nat := 0
  joined : Bool := false
  clean : Nat := 0
  stageWait : Nat := 0
  accWait : Nat := 0
  rowDry : Nat := 0
  drainFreeze : Nat := 0
  deriving DecidableEq, Repr

/-- R212: what the header ECC check of a CSI-2 packet found. -/
inductive HdrEcc where
  | ok | corrected | failed
  deriving DecidableEq, Repr

/-- The verdict of R249; `deadline` is the frame's, as a device time in ns. -/
structure Verdict where
  frame : Nat
  valid : Bool
  reason : BitVec 16
  cells : Word
  missed : Word
  unsupported : BitVec 16
  token : Word
  deadline : Nat
  deriving DecidableEq, Repr

/-- A Sync as the time engine sees it (R282): port, corrected ingress stamp, origin and correction in 2^-16 ns. -/
structure SyncMsg where
  port : Fin 16
  domain : Byte
  seqId : BitVec 16
  twoStep : Bool
  origin : Int
  correction : Int
  ingress : Int
  deriving DecidableEq, Repr

/-- A Follow_Up (R282); origin and correction in 2^-16 ns. -/
structure FollowUpMsg where
  port : Fin 16
  domain : Byte
  seqId : BitVec 16
  origin : Int
  correction : Int
  deriving DecidableEq, Repr

/-- R394: where a request came from. -/
inductive Source where
  | can (c : Fin 2)
  | qmp
  | mailbox
  | internal
  deriving DecidableEq, Repr

/-- R212: the header of a short CSI-2 packet as it is received: its virtual channel, and what its ECC has found. -/
structure CsiHeader where
  vc : Fin 4
  ecc : HdrEcc
  deriving DecidableEq, Repr

/-- R133: a LOAD_DIM step of a context, with what only timing decides of its read (R96). -/
structure DimRead where
  p : Fin 2
  dyn : StepDyn
  deriving DecidableEq, Repr

/-- R396: where a QMP datagram comes from, and the port it goes to. -/
structure UdpFrom where
  ip : Word
  port : BitVec 16
  dst : BitVec 16
  deriving DecidableEq, Repr

/-- R164: a station, and the cycles for which its arrays have been idle. -/
structure IdleStation where
  stn : Fin 32
  idle : Nat
  deriving DecidableEq, Repr

/-- R439: a monitored clock, and how far its count has departed from nominal in two consecutive windows. -/
structure ClockCount where
  clock : Fin 9
  ppm : Int
  deriving DecidableEq, Repr

/-- A Kydor packet (R411). -/
structure KydPkt where
  dst : Fin 32
  src : Fin 32
  vc : Fin 4
  cls : Bool
  response : Bool
  op : Byte
  tag : BitVec 16
  addr : BitVec 34
  fed : Bool
  ack : Bool
  poison : Bool
  payload : List Byte
  deriving DecidableEq, Repr

/-- A worker's local verdict (R427). -/
structure LocalVerdict where
  valid : Bool
  reason : BitVec 16
  cells : Word
  missed : Word
  unsupported : BitVec 16
  latched : Bool
  deriving DecidableEq, Repr

/-- R369: what a spare's test token says. -/
inductive BistTok where
  | start | complete | pass | fail
  deriving DecidableEq, Repr

/-- What a unit's BIST found (R459): pass, first failing memory instance, both signatures and the µs of test time. -/
structure BistResult where
  failing : BitVec 16
  lbist : BitVec 64
  mbist : BitVec 64
  duration : Word
  deriving DecidableEq, Repr

/-- The message of VC 0 that a TOKEN packet carries (R89, R413, R419, R422, R428). `report`: what START needs of a device: R383's START
conditions met, its ports that are UP, its SYS_CRC. -/
inductive KydTok where
  | start
  | stop
  | state (dev : Fin 32) (code : Byte)
  | report (dev : Fin 32) (ready : Bool) (links : BitVec 4) (crc : Word)
  | retired (dev : Fin 32) (frame : Nat)
  | histDone (dev : Fin 32) (frame : Nat)
  | lookDone (dev : Fin 32) (frame : Nat)
  | abandon (frame : Nat)
  | frameToken (frame : Nat) (tref : Nat)
  | systemVerdict (v : Verdict) (latched : Bool)
  deriving DecidableEq, Repr

/-- The commands of the block: the rows of the opcode table, in its order. -/
inductive Instr where
  | reg64ReadLower (r : Requester) (a : BitVec 40)
  | reg64ReadUpper (r : Requester) (a : BitVec 40)
  | reg64WriteUpper (r : Requester) (a : BitVec 40) (v : Word)
  | reg64WriteLower (r : Requester) (a : BitVec 40) (v : Word) (now : Nat)
  | registerWrite (r : Requester) (a : BitVec 40) (v : Word) (now : Nat)
  | rcRead (r : Requester) (a : BitVec 40) (coinciding : Nat)
  | unmappedAccess (r : Requester) (a : BitVec 40) (w : Option Word)
  | fabricAccess (r : Requester) (a : BitVec 40) (op : FabOp)
  | hostBarAccess (e : Fin 2) (bar : Bar) (off : Nat) (op : FabOp)
  | sdWindowWrite (r : Requester) (a : BitVec 40) (v : Word)
  | ethFrameRx (port : Fin 16) (frame : List Byte) (fcsOk : Bool) (raw : Nat) (mirrorFits : Bool) (burst : Nat) (now : Nat)
  | frameWindowOpen (f : Nat) (now : Nat)
  | sliceClose (now : Nat)
  | poseWaitExpiry (now : Nat)
  | bankReleased (p : Fin 2)
  | directoryClearDone (p : Fin 2)
  | poseCommit (crc : Word)
  | sieEnable (d : Fin 2) (now : Nat)
  | sieDisable (d : Fin 2) (flush : Bool)
  | flush (d : Fin 2)
  | bsLookup (q : Fin 4) (p : Fin 2)
  | bsWrite (q : Fin 4) (p : Fin 2)
  | newEpoch
  | hsClear
  | hsClearDone
  | hsEn (v : Bool)
  | hsCfgWrite (w : HsReg)
  | fabForce (um : Fin 36) (waited : Nat)
  | agePromote (arb : Fin 4) (waited : Nat)
  | syncAdd (obj : Fin 16384) (n : BitVec 24)
  | syncSet (obj : Fin 16384) (n : BitVec 24)
  | umPortmapWrite (um : Fin 36) (v : Word)
  | load
  | loadDone
  | runSet (now : Nat)
  | runClear
  | crcPass
  | nop (u : UnitId) (p : Fin 2)
  | loop (u : UnitId) (p : Fin 2)
  | endloop (u : UnitId) (p : Fin 2)
  | claim (u : UnitId) (p : Fin 2)
  | claimEnd (u : UnitId) (p : Fin 2)
  | loadDim (u : UnitId) (x : DimRead)
  | signalN (u : UnitId) (p : Fin 2)
  | frameOpen (now : Nat)
  | taskAdmit (t : Nat) (p : Fin 2)
  | taskComplete (u : UnitId) (p : Fin 2)
  | frameRetire (p : Fin 2)
  | stepOverrun (u : UnitId) (p : Fin 2) (cycles : Nat)
  | faultReport (p : Fin 2) (task : Nat) (code : Byte) (unit : Byte) (step : Nat)
  | abandonTimeout (p : Fin 2) (now : Nat)
  | resyncDrained (now : Nat)
  | histWriteReissue (u : UnitId) (p : Fin 2)
  | bistWindowOpen (now : Nat)
  | bistWindowEnd (now : Nat)
  | bistOverdue (now : Nat)
  | spareTestDone (r : BistResult) (now : Nat)
  | mm (s : Fin 32) (p : Fin 2) (dyn : StepDyn)
  | mmb (s : Fin 32) (p : Fin 2) (dyn : StepDyn)
  | rampDown (x : IdleStation)
  | add (s : Fin 32) (p : Fin 2) (dyn : StepDyn)
  | sub (s : Fin 32) (p : Fin 2) (dyn : StepDyn)
  | mul (s : Fin 32) (p : Fin 2) (dyn : StepDyn)
  | max (s : Fin 32) (p : Fin 2) (dyn : StepDyn)
  | min (s : Fin 32) (p : Fin 2) (dyn : StepDyn)
  | muladd (s : Fin 32) (p : Fin 2) (dyn : StepDyn)
  | cvt (s : Fin 32) (p : Fin 2) (dyn : StepDyn)
  | tab (s : Fin 32) (p : Fin 2) (dyn : StepDyn)
  | rsum (s : Fin 32) (p : Fin 2) (dyn : StepDyn)
  | rmax (s : Fin 32) (p : Fin 2) (dyn : StepDyn)
  | lsum (s : Fin 32) (p : Fin 2) (dyn : StepDyn)
  | perm (s : Fin 32) (p : Fin 2) (dyn : StepDyn)
  | sort (s : Fin 32) (p : Fin 2) (dyn : StepDyn)
  | merge (s : Fin 32) (p : Fin 2) (dyn : StepDyn)
  | rbClear (q : Fin 4) (p : Fin 2)
  | rbInsert (q : Fin 4) (p : Fin 2)
  | rbSubm (q : Fin 4) (p : Fin 2)
  | rbMark (q : Fin 4) (p : Fin 2)
  | rbCount (q : Fin 4) (p : Fin 2)
  | rbEmit (q : Fin 4) (p : Fin 2)
  | rbStrided (q : Fin 4) (p : Fin 2)
  | gatherAligned (g : Fin 8) (p : Fin 2)
  | gatherCompact (g : Fin 8) (p : Fin 2)
  | gatherPacked (g : Fin 8) (p : Fin 2)
  | scatter (g : Fin 8) (p : Fin 2)
  | drainRows (g : Fin 8) (p : Fin 2)
  | packUns (g : Fin 8) (p : Fin 2)
  | compress (g : Fin 8) (p : Fin 2)
  | trainEn (g : Fin 8) (v : Bool)
  | csiFrameStart (d : Fin 2) (rx : Fin 8) (h : CsiHeader) (seq : BitVec 16) (now : Nat)
  | csiLine (d : Fin 2) (rx : Fin 8) (vc : Fin 4) (dt : Byte) (payload : List Byte) (hdr : HdrEcc) (crcOk : Bool)
  | csiFrameEnd (d : Fin 2) (rx : Fin 8) (h : CsiHeader) (now : Nat)
  | camPublish (d : Fin 2) (now : Nat)
  | camGraceExpiry (d : Fin 2) (now : Nat)
  | crProject (c : Fin 2) (p : Fin 2)
  | crCrop (c : Fin 2) (p : Fin 2)
  | smMerge (p : Fin 2)
  | smBoxes (p : Fin 2)
  | verdictReceived (v : Verdict)
  | batchCommit (f : Nat) (now : Nat)
  | ringCopy (e : Fin 2) (f : Nat)
  | consIdxWrite (e : Fin 2) (v : Word)
  | dmaStart (c : Fin 64)
  | dmaLineWrite (c : Fin 64)
  | paceResume (c : Fin 64)
  | lapEnd (c : Fin 64)
  | dmaPause (c : Fin 64)
  | dmaPaused (c : Fin 64)
  | dmaResume (c : Fin 64)
  | dmaAbort (c : Fin 64)
  | dmaStopped (c : Fin 64)
  | dmaFence (c : Fin 64)
  | fenced (c : Fin 64)
  | dmaError (c : Fin 64) (code : BitVec 4) (write : Bool) (addr : BitVec 64)
  | dmaCopy (c : Fin 64) (p : Fin 2)
  | dmaGather (c : Fin 64) (p : Fin 2)
  | dmaScatter (c : Fin 64) (p : Fin 2)
  | dmaDeinterleave (c : Fin 64) (p : Fin 2)
  | dmaInterleave (c : Fin 64) (p : Fin 2)
  | dmaBitplane (c : Fin 64) (p : Fin 2)
  | timeAlign (now : Nat)
  | timeSet (v : BitVec 64)
  | ptpSync (m : SyncMsg) (now : Nat)
  | ptpFollowUp (m : FollowUpMsg) (now : Nat)
  | servoEn (v : Bool)
  | servoReset
  | syncTimeout (now : Nat)
  | holdoverAlarm (now : Nat)
  | ethFrameTx (port : Fin 16) (q : Fin 8) (fw : Option (List Byte)) (now : Nat)
  | configChange (port : Fin 16) (now : Nat)
  | gateListSwap (port : Fin 16) (now : Nat)
  | gateIntervalEnd (port : Fin 16) (now : Nat)
  | txStampPop (r : Requester) (port : Fin 16)
  | macAging (d : Fin 2) (mac : BitVec 48) (now : Nat)
  | ethLinkChange (port : Fin 16) (up : Bool) (speed : Fin 4)
  | clAccum (p : Fin 2)
  | clSnapshot (p : Fin 2)
  | submit
  | apply
  | calFlashWritten (now : Nat)
  | withdraw
  | mirrorCopy (port : Fin 16) (frame : List Byte) (stamp : Nat) (drops : List (Nat × Nat)) (now : Nat)
  | gridClose (f : Nat) (now : Nat)
  | checkerNetworkDone (f : Nat) (net : List (Nat × Byte))
  | boxRecord (f : Nat) (bytes : List Byte)
  | endMark (f : Nat) (now : Nat)
  | verdictIssue (f : Nat) (now : Nat)
  | deadlineExpiry (f : Nat) (now : Nat)
  | lockstepMismatch
  | readbackDiscrepancy (outB : Bool) (duration : Nat)
  | testPulse (outB : Bool) (now : Nat)
  | cyclic (now : Nat)
  | injectionSweep (failing : List (Fin 11)) (now : Nat)
  | sweepOverrun (elapsed : Nat)
  | armFrameWaitTimeout (now : Nat)
  | tokenStart (mon : Fin 512) (f : BitVec 16) (now : Nat)
  | tokenEnd (mon : Fin 512) (f : BitVec 16) (zero : Bool) (now : Nat)
  | tokenRestart (mon : Fin 512) (f : BitVec 16) (now : Nat)
  | tokenAbandon (f : BitVec 16)
  | execMaxExpiry (mon : Fin 512) (f : BitVec 16) (now : Nat)
  | startLatestExpiry (mon : Fin 512) (f : BitVec 16) (now : Nat)
  | frameToken (f : Nat) (tref : Nat)
  | bistToken (s : Fin 32) (k : BistTok) (now : Nat)
  | stationTestOverdue (s : Fin 32) (now : Nat)
  | safeParamCheck
  | sdSramError (bank : BitVec 24) (poll : Bool)
  | commission (src : Source)
  | endCommission (src : Source)
  | arm (src : Source) (now : Nat)
  | disarm (src : Source)
  | start (src : Source)
  | stop (src : Source)
  | safeStop (src : Source)
  | recover (src : Source)
  | save (src : Source) (flashOk : Bool)
  | reset (src : Source)
  | calCommission (src : Source)
  | modelSwitch (src : Source)
  | sdoDownload (c : Fin 2) (req : List Byte) (now : Nat)
  | sdoUpload (c : Fin 2) (req : List Byte) (now : Nat)
  | sdoSegment (c : Fin 2) (req : List Byte) (now : Nat)
  | sdoAbort (c : Fin 2) (req : List Byte)
  | sdoTimeout (c : Fin 2) (now : Nat)
  | qmpRead (peer : UdpFrom) (msg : List Byte) (now : Nat)
  | qmpWrite (peer : UdpFrom) (msg : List Byte) (now : Nat)
  | mbxGo (now : Nat)
  | confirm (src : Source) (crc : Word)
  | pendingDiscard (now : Nat)
  | aedImage (src : Source) (img : List Byte)
  | sdImage (src : Source) (img : List Byte)
  | secVersionRaise (src : Source)
  | kydRead (k : Fin 4) (m : KydPkt)
  | kydWrite (k : Fin 4) (m : KydPkt)
  | kydSync (k : Fin 4) (m : KydPkt)
  | kydHsLookup (k : Fin 4) (m : KydPkt)
  | kydHsWrite (k : Fin 4) (m : KydPkt)
  | kydToken (k : Fin 4) (m : KydTok) (now : Nat)
  | kydRecord (k : Fin 4) (f : Nat) (bytes : List Byte) (last : Bool)
  | kydQmp (k : Fin 4) (m : KydPkt) (now : Nat)
  | kydCompletion (k : Fin 4) (m : KydPkt)
  | kydTransit (k : Fin 4) (m : KydPkt)
  | kydNak (k : Fin 4) (lseq : BitVec 12)
  | kydIdleTimeout (k : Fin 4)
  | kydLinkUp (k : Fin 4) (peer : Fin 32)
  | retrain (k : Fin 4)
  | respTimeout (tag : BitVec 16)
  | frameRelease (f : Nat)
  | localVerdict (dev : Fin 32) (f : Nat) (v : LocalVerdict)
  | systemVerdict (f : Nat) (now : Nat)
  | pllUnlock
  | clockMonitorTrip (x : ClockCount)
  | sdClockFailure
  | voltageFault (rail : Fin 10) (samples : Nat)
  | powerLimit (src : Source) (v : BitVec 16)
  | powerDutyStep (power : BitVec 16) (now : Nat)
  | thermalDutyStep (sensor : Byte) (tj : BitVec 16) (now : Nat)
  | hbmTempRead (k : Fin 6) (t : Byte)
  | thermalTrip (now : Nat)
  | shdn (now : Nat)
  | sdPgRise (testMode : Bool)
  | mainPgRise
  | mainPgFall
  | mainPgTimeout
  | pllLockTimeout
  | aedbaodRunning
  | hbmTrainingDone (failed : List (Fin 6))
  | startupBistDone (results : List (Fin 14 × BistResult))
  | resetN (lowNs : Nat)
  | perstN (d : Fin 2) (low : Bool)
  | pcieHotReset (d : Fin 2)
  | bistStart (src : Source) (v : Word)
  | bistUnitDone (u : Fin 14) (r : BistResult) (now : Nat)
  | bypass (die : Fin 4) (tdi : List Bool)
  | idcode (die : Fin 4)
  | samplePreload (die : Fin 4) (pins : List Bool) (preload : List Bool)
  | extest (die : Fin 4) (pins : List Bool)
  | highz (die : Fin 4)
  | clamp (die : Fin 4)
  | extestPulse (die : Fin 4) (lanes : List Bool)
  | extestTrain (die : Fin 4) (lanes : List Bool)
  | trstN
  | pllLock
  | noAedbaodSlotAccepted
  | juneshaRailLost
  | pcsLockLost (k : Fin 4)
  | pcieLinkDown (e : Fin 2) (down : Bool)
  | cameraWindowOpen (d : Fin 2) (f : Nat) (now : Nat)
  deriving DecidableEq, Repr

end Sys2Proof
end

