-- ==== Sys2Proof/WellFormed.lean ====
section
/-! DEFINITION. Well-formed commands: those whose operands fit the fields that carry them. The meanings are total all the same. -/

namespace Sys2Proof

/-- R12, R25: a whole aligned word of register space. -/
def regWord (a : BitVec 40) : Bool := decide (a.toNat % 4 = 0 ∧ 0x20000000 ≤ a.toNat ∧ a.toNat < 0x30000000)

/-- R6: a frame number is 32 bits wide. -/
def frameNo (f : Nat) : Bool := decide (f < 2 ^ 32)

/-- R122: a book holds at most 1,024 tasks. -/
def taskNo (t : Nat) : Bool := decide (t < 1024)

/-- An Ethernet frame holds at least its header. -/
def frameWf (b : List Byte) : Bool := decide (14 ≤ b.length)

/-- The bytes an operation touches. -/
def FabOp.bytes : FabOp → Nat
  | .read n => n
  | .write bs _ => bs.length

/-- R21: a transaction touches at least one byte. -/
def FabOp.wf (op : FabOp) : Bool := decide (0 < op.bytes)

/-- R411: the payload of a packet. -/
def pktWf (m : KydPkt) : Bool := decide (m.payload.length ≤ 256)

/-- The command's operands fit their fields. -/
def Instr.wf : Instr → Bool
  | .reg64ReadLower _ a => regWord a
  | .reg64ReadUpper _ a => regWord a
  | .reg64WriteUpper _ a _ => regWord a
  | .reg64WriteLower _ a _ _ => regWord a
  | .registerWrite _ a _ _ => regWord a
  | .rcRead _ a _ => regWord a
  | .unmappedAccess _ a _ => regWord a
  | .fabricAccess _ a op => op.wf && decide (a.toNat + op.bytes ≤ 2 ^ 40)
  | .hostBarAccess _ _ _ op => op.wf
  | .sdWindowWrite _ a _ => regWord a && decide (0x22000000 ≤ a.toNat ∧ a.toNat < 0x22100000)
  | .ethFrameRx _ frame _ _ _ _ _ => frameWf frame
  | .frameWindowOpen f _ => frameNo f
  | .sliceClose _ => true
  | .poseWaitExpiry _ => true
  | .bankReleased _ => true
  | .directoryClearDone _ => true
  | .poseCommit _ => true
  | .sieEnable _ _ => true
  | .sieDisable _ _ => true
  | .flush _ => true
  | .bsLookup _ _ => true
  | .bsWrite _ _ => true
  | .newEpoch => true
  | .hsClear => true
  | .hsClearDone => true
  | .hsEn _ => true
  | .hsCfgWrite _ => true
  | .fabForce _ _ => true
  | .agePromote _ _ => true
  | .syncAdd _ _ => true
  | .syncSet _ _ => true
  | .umPortmapWrite _ _ => true
  | .load => true
  | .loadDone => true
  | .runSet _ => true
  | .runClear => true
  | .crcPass => true
  | .nop _ _ => true
  | .loop _ _ => true
  | .endloop _ _ => true
  | .claim _ _ => true
  | .claimEnd _ _ => true
  | .loadDim _ _ => true
  | .signalN _ _ => true
  | .frameOpen _ => true
  | .taskAdmit t _ => taskNo t
  | .taskComplete _ _ => true
  | .frameRetire _ => true
  | .stepOverrun _ _ _ => true
  | .faultReport _ task _ _ step => taskNo task && decide (step < 65536)
  | .abandonTimeout _ _ => true
  | .resyncDrained _ => true
  | .histWriteReissue _ _ => true
  | .bistWindowOpen _ => true
  | .bistWindowEnd _ => true
  | .bistOverdue _ => true
  | .spareTestDone _ _ => true
  | .mm _ _ _ => true
  | .mmb _ _ _ => true
  | .rampDown _ => true
  | .add _ _ _ => true
  | .sub _ _ _ => true
  | .mul _ _ _ => true
  | .max _ _ _ => true
  | .min _ _ _ => true
  | .muladd _ _ _ => true
  | .cvt _ _ _ => true
  | .tab _ _ _ => true
  | .rsum _ _ _ => true
  | .rmax _ _ _ => true
  | .lsum _ _ _ => true
  | .perm _ _ _ => true
  | .sort _ _ _ => true
  | .merge _ _ _ => true
  | .rbClear _ _ => true
  | .rbInsert _ _ => true
  | .rbSubm _ _ => true
  | .rbMark _ _ => true
  | .rbCount _ _ => true
  | .rbEmit _ _ => true
  | .rbStrided _ _ => true
  | .gatherAligned _ _ => true
  | .gatherCompact _ _ => true
  | .gatherPacked _ _ => true
  | .scatter _ _ => true
  | .drainRows _ _ => true
  | .packUns _ _ => true
  | .compress _ _ => true
  | .trainEn _ _ => true
  | .csiFrameStart _ _ _ _ _ => true
  | .csiLine _ _ _ _ _ _ _ => true
  | .csiFrameEnd _ _ _ _ => true
  | .camPublish _ _ => true
  | .camGraceExpiry _ _ => true
  | .crProject _ _ => true
  | .crCrop _ _ => true
  | .smMerge _ => true
  | .smBoxes _ => true
  | .verdictReceived v => frameNo v.frame
  | .batchCommit f _ => frameNo f
  | .ringCopy _ f => frameNo f
  | .consIdxWrite _ _ => true
  | .dmaStart _ => true
  | .dmaLineWrite _ => true
  | .paceResume _ => true
  | .lapEnd _ => true
  | .dmaPause _ => true
  | .dmaPaused _ => true
  | .dmaResume _ => true
  | .dmaAbort _ => true
  | .dmaStopped _ => true
  | .dmaFence _ => true
  | .fenced _ => true
  | .dmaError _ _ _ _ => true
  | .dmaCopy _ _ => true
  | .dmaGather _ _ => true
  | .dmaScatter _ _ => true
  | .dmaDeinterleave _ _ => true
  | .dmaInterleave _ _ => true
  | .dmaBitplane _ _ => true
  | .timeAlign _ => true
  | .timeSet _ => true
  | .ptpSync _ _ => true
  | .ptpFollowUp _ _ => true
  | .servoEn _ => true
  | .servoReset => true
  | .syncTimeout _ => true
  | .holdoverAlarm _ => true
  | .ethFrameTx _ _ fw _ => (match fw with | some b => frameWf b | none => true)
  | .configChange _ _ => true
  | .gateListSwap _ _ => true
  | .gateIntervalEnd _ _ => true
  | .txStampPop _ _ => true
  | .macAging _ _ _ => true
  | .ethLinkChange _ _ _ => true
  | .clAccum _ => true
  | .clSnapshot _ => true
  | .submit => true
  | .apply => true
  | .calFlashWritten _ => true
  | .withdraw => true
  | .mirrorCopy _ frame _ _ _ => frameWf frame
  | .gridClose f _ => frameNo f
  | .checkerNetworkDone f _ => frameNo f
  | .boxRecord f bytes => frameNo f && decide (bytes.length = 64)
  | .endMark f _ => frameNo f
  | .verdictIssue f _ => frameNo f
  | .deadlineExpiry f _ => frameNo f
  | .lockstepMismatch => true
  | .readbackDiscrepancy _ _ => true
  | .testPulse _ _ => true
  | .cyclic _ => true
  | .injectionSweep failing _ => decide failing.Nodup
  | .sweepOverrun _ => true
  | .armFrameWaitTimeout _ => true
  | .tokenStart _ _ _ => true
  | .tokenEnd _ _ _ _ => true
  | .tokenRestart _ _ _ => true
  | .tokenAbandon _ => true
  | .execMaxExpiry _ _ _ => true
  | .startLatestExpiry _ _ _ => true
  | .frameToken f _ => frameNo f
  | .bistToken _ _ _ => true
  | .stationTestOverdue _ _ => true
  | .safeParamCheck => true
  | .sdSramError _ _ => true
  | .commission _ => true
  | .endCommission _ => true
  | .arm _ _ => true
  | .disarm _ => true
  | .start _ => true
  | .stop _ => true
  | .safeStop _ => true
  | .recover _ => true
  | .save _ _ => true
  | .reset _ => true
  | .calCommission _ => true
  | .modelSwitch _ => true
  | .sdoDownload _ req _ => decide (req.length = 8)
  | .sdoUpload _ req _ => decide (req.length = 8)
  | .sdoSegment _ req _ => decide (req.length = 8)
  | .sdoAbort _ req => decide (req.length = 8)
  | .sdoTimeout _ _ => true
  | .qmpRead _ msg _ => decide (msg.length ≤ 1044)
  | .qmpWrite _ msg _ => decide (msg.length ≤ 1044)
  | .mbxGo _ => true
  | .confirm _ _ => true
  | .pendingDiscard _ => true
  | .aedImage _ img => decide (img.length ≤ 0x400000)
  | .sdImage _ img => decide (img.length ≤ 0x400000)
  | .secVersionRaise _ => true
  | .kydRead _ m => pktWf m
  | .kydWrite _ m => pktWf m
  | .kydSync _ m => pktWf m
  | .kydHsLookup _ m => pktWf m
  | .kydHsWrite _ _ => true
  | .kydToken _ _ _ => true
  | .kydRecord _ f bytes last => frameNo f && decide (bytes.length = if last then 0 else 64)
  | .kydQmp _ m _ => pktWf m
  | .kydCompletion _ _ => true
  | .kydTransit _ _ => true
  | .kydNak _ _ => true
  | .kydIdleTimeout _ => true
  | .kydLinkUp _ _ => true
  | .retrain _ => true
  | .respTimeout _ => true
  | .frameRelease f => frameNo f
  | .localVerdict _ f _ => frameNo f
  | .systemVerdict f _ => frameNo f
  | .pllUnlock => true
  | .clockMonitorTrip x => decide (-1000000 ≤ x.ppm)
  | .sdClockFailure => true
  | .voltageFault _ _ => true
  | .powerLimit _ _ => true
  | .powerDutyStep _ _ => true
  | .thermalDutyStep _ _ _ => true
  | .hbmTempRead _ _ => true
  | .thermalTrip _ => true
  | .shdn _ => true
  | .sdPgRise _ => true
  | .mainPgRise => true
  | .mainPgFall => true
  | .mainPgTimeout => true
  | .pllLockTimeout => true
  | .aedbaodRunning => true
  | .hbmTrainingDone failed => decide failed.Nodup
  | .startupBistDone results => decide (results.map (·.1)).Nodup
  | .resetN _ => true
  | .perstN _ _ => true
  | .pcieHotReset _ => true
  | .bistStart _ _ => true
  | .bistUnitDone _ _ _ => true
  | .bypass _ _ => true
  | .idcode _ => true
  | .samplePreload _ _ _ => true
  | .extest _ _ => true
  | .highz _ => true
  | .clamp _ => true
  | .extestPulse _ _ => true
  | .extestTrain _ _ => true
  | .trstN => true
  | .pllLock => true
  | .noAedbaodSlotAccepted => true
  | .juneshaRailLost => true
  | .pcsLockLost _ => true
  | .pcieLinkDown _ _ => true
  | .cameraWindowOpen _ f _ => frameNo f

end Sys2Proof
end

