-- ==== Sys2Proof/Machine/Bits.lean ====
section
/-! DEFINITION. Bit fields, little-endian words (R9), sign extension, the cyclic redundancy checks of R69 and R246, sparse
lists in canonical form, and the small integer operations the chapters use. -/

namespace Sys2Proof.Machine

/-- Bits [hi:lo] of `n`, both ends included (R9's bit ranges). -/
def bits (n hi lo : Nat) : Nat := n / 2 ^ lo % 2 ^ (hi + 1 - lo)

/-- Bit `i` of `n`. -/
def bit (n i : Nat) : Bool := n / 2 ^ i % 2 = 1

/-- `n` with bits [hi:lo] replaced by the low bits of `v`. -/
def setBits (n hi lo v : Nat) : Nat :=
  n / 2 ^ (hi + 1) * 2 ^ (hi + 1) + v % 2 ^ (hi + 1 - lo) * 2 ^ lo + n % 2 ^ lo

/-- The signed value of the low `w` bits of `n`. -/
def sext (w n : Nat) : Int :=
  let m := n % 2 ^ w
  if 2 ^ (w - 1) ≤ m then (m : Int) - 2 ^ w else m

/-- Two's complement of `i` in `w` bits. -/
def toU (w : Nat) (i : Int) : Nat := (i % (2 ^ w : Nat)).toNat

/-- A Bool as a bit. -/
def b2n (b : Bool) : Nat := if b then 1 else 0

/-- Rounded-up quotient. -/
def ceilDiv (a b : Nat) : Nat := (a + b - 1) / b

/-- The next multiple of `b` at or above `a`. -/
def roundUp (a b : Nat) : Nat := ceilDiv a b * b

/-- Number of bits of `n`. -/
def bitLen (n : Nat) : Nat := if n = 0 then 0 else Nat.log2 n + 1

/-- The value of `bs` read little-endian (R9). -/
def leNat : List Byte → Nat
  | [] => 0
  | b :: bs => b.toNat + 256 * leNat bs

/-- The value of `bs` read big-endian (the protocol headers of R9). -/
def beNat (bs : List Byte) : Nat := leNat bs.reverse

/-- `n` in `k` bytes, little-endian. -/
def leBytes : Nat → Nat → List Byte
  | 0, _ => []
  | k + 1, n => BitVec.ofNat 8 n :: leBytes k (n / 256)

/-- `n` in `k` bytes, big-endian. -/
def beBytes (k n : Nat) : List Byte := (leBytes k n).reverse

/-- `k` zero bytes. -/
def zeros (k : Nat) : List Byte := List.replicate k 0

/-- `len` bytes of `bs` from `off`, zeros beyond the end. -/
def sub (bs : List Byte) (off len : Nat) : List Byte :=
  let r := (bs.drop off).take len
  r ++ zeros (len - r.length)

/-- Little-endian field of `len` bytes at `off`. -/
def fld (bs : List Byte) (off len : Nat) : Nat := leNat (sub bs off len)

/-- Signed little-endian field. -/
def sfld (bs : List Byte) (off len : Nat) : Int := sext (8 * len) (fld bs off len)

/-- Big-endian field of a protocol header. -/
def bfld (bs : List Byte) (off len : Nat) : Nat := beNat (sub bs off len)

/-- One bit of a reflected CRC division by `p`. -/
def crcBit (p c : Nat) : Nat := if c % 2 = 1 then (c / 2) ^^^ p else c / 2

/-- Eight bits of a reflected CRC division. -/
def crcByte (p c : Nat) : Nat :=
  crcBit p (crcBit p (crcBit p (crcBit p (crcBit p (crcBit p (crcBit p (crcBit p c)))))))

/-- The running CRC-32C register over `bs` (reflected Castagnoli polynomial, R69). -/
def crc32cRun : Nat → List Byte → Nat
  | c, [] => c
  | c, b :: bs => crc32cRun (crcByte 0x82F63B78 (c ^^^ b.toNat)) bs

/-- CRC-32C with the parameters of R69. -/
def crc32c (bs : List Byte) : Nat := crc32cRun 0xFFFFFFFF bs ^^^ 0xFFFFFFFF

/-- One bit of the CRC-16 of R246. -/
def crc16Bit (c : Nat) : Nat := if 0x8000 ≤ c then (c * 2 % 0x10000) ^^^ 0x1021 else c * 2

/-- The running CRC-16 over `bs`. -/
def crc16Run : Nat → List Byte → Nat
  | c, [] => c
  | c, b :: bs =>
    crc16Run (crc16Bit (crc16Bit (crc16Bit (crc16Bit (crc16Bit (crc16Bit (crc16Bit (crc16Bit
      (c ^^^ (b.toNat * 256))))))))) ) bs

/-- CRC-16, polynomial 0x1021, initial 0xFFFF, not reflected, no final XOR (R246). -/
def crc16 (bs : List Byte) : Nat := crc16Run 0xFFFF bs

/-- The entry of a sparse list under key `k`, or the value `d` of unlisted keys. -/
def sget {α : Type} (d : α) : List (Nat × α) → Nat → α
  | [], _ => d
  | (j, v) :: t, k => if j = k then v else if k < j then d else sget d t k

/-- A sparse list with key `k` set to `v`; the value `d` is never listed and the keys stay strictly rising. -/
def sset {α : Type} [DecidableEq α] (d : α) : List (Nat × α) → Nat → α → List (Nat × α)
  | [], k, v => if v = d then [] else [(k, v)]
  | (j, w) :: t, k, v =>
    if k = j then (if v = d then t else (k, v) :: t)
    else if k < j then (if v = d then (j, w) :: t else (k, v) :: (j, w) :: t)
    else (j, w) :: sset d t k v

/-- Keys strictly above `lo` (when given) and strictly rising, no entry at the unlisted value. -/
def scanon {α : Type} [DecidableEq α] (d : Nat → α) : Option Nat → List (Nat × α) → Bool
  | _, [] => true
  | lo, (j, v) :: t =>
    (match lo with | none => true | some l => decide (l < j)) && decide (v ≠ d j) && scanon d (some j) t

/-- `k` put into a rising list of numbers. -/
def nins : List Nat → Nat → List Nat
  | [], k => [k]
  | j :: t, k => if k = j then j :: t else if k < j then k :: j :: t else j :: nins t k

/-- `k` taken out of a rising list of numbers. -/
def ndel : List Nat → Nat → List Nat
  | [], _ => []
  | j :: t, k => if k = j then t else if k < j then j :: t else j :: ndel t k

/-- The list with element `i` replaced through `f`. -/
def modAt {α : Type} (f : α → α) : List α → Nat → List α
  | [], _ => []
  | x :: xs, 0 => f x :: xs
  | x :: xs, i + 1 => x :: modAt f xs i

/-- The entry of an association list, by a decidable key. -/
def alook {κ α : Type} [DecidableEq κ] : List (κ × α) → κ → Option α
  | [], _ => none
  | (j, v) :: t, k => if j = k then some v else alook t k

/-- An association list with `k` set to `v`. -/
def aset {κ α : Type} [DecidableEq κ] : List (κ × α) → κ → α → List (κ × α)
  | [], k, v => [(k, v)]
  | (j, w) :: t, k, v => if j = k then (k, v) :: t else (j, w) :: aset t k v

/-- An association list without `k`. -/
def adel {κ α : Type} [DecidableEq κ] (l : List (κ × α)) (k : κ) : List (κ × α) := l.filter (fun e => e.1 ≠ k)

/-- `n` values from `i` on, through `f`. -/
def tab {α : Type} (n : Nat) (f : Nat → α) : List α := (List.range n).map f

/-- Sum of a list. -/
def lsum (l : List Nat) : Nat := l.foldl (· + ·) 0

/-- Floor square root, one bit at a time from bit `i` down. -/
def isqrtFrom : Nat → Nat → Nat → Nat
  | 0, _, r => r
  | i + 1, n, r => if (r + 2 ^ i) * (r + 2 ^ i) ≤ n then isqrtFrom i n (r + 2 ^ i) else isqrtFrom i n r

/-- Floor square root. -/
def isqrt (n : Nat) : Nat := isqrtFrom (bitLen n / 2 + 1) n 0

/-- `x / y` rounded to the nearest integer, ties to even, for `0 < y`. -/
def divRne (x : Int) (y : Nat) : Int :=
  let q := x / y
  let r := x % y
  if 2 * r < y then q else if (y : Int) < 2 * r then q + 1 else if q % 2 = 0 then q else q + 1

/-- Stable insertion before the first element that `lt` puts after `x`. -/
def insertBy {α : Type} (le : α → α → Bool) (x : α) : List α → List α
  | [] => [x]
  | y :: ys => if le y x then y :: insertBy le x ys else x :: y :: ys

/-- Stable insertion sort by `le`. -/
def sortBy {α : Type} (le : α → α → Bool) (l : List α) : List α := l.foldl (fun acc x => insertBy le x acc) []

/-- The list in pieces of `k` (at most `fuel` of them). -/
def chunks {α : Type} (k : Nat) : Nat → List α → List (List α)
  | 0, _ => []
  | _, [] => []
  | f + 1, l => l.take k :: chunks k f (l.drop k)

end Sys2Proof.Machine
end

