-- ==== Sys2Proof/Machine/Float.lean ====
section
/-! DEFINITION. Floating point on codes: the formats of R170 and the REAL32 and binary64 of the other chapters. Every operation
is exact, then rounded once to nearest, ties to even; subnormals are honoured (R170). -/

namespace Sys2Proof.Machine

/-- A binary format: exponent and mantissa bits, whether the all-ones exponent is infinity and NaN as in IEEE 754 (E4M3
has no infinity, R170), and the NaN code results take (R171, R173). -/
structure Fmt where
  eb : Nat
  mb : Nat
  ieee : Bool
  nan : Nat
  deriving DecidableEq, Repr

def fmtE4M3 : Fmt := { eb := 4, mb := 3, ieee := false, nan := 0x7F }
def fmtE5M2 : Fmt := { eb := 5, mb := 2, ieee := true, nan := 0x7F }
def fmtBF16 : Fmt := { eb := 8, mb := 7, ieee := true, nan := 0x7FC0 }
def fmt32 : Fmt := { eb := 8, mb := 23, ieee := true, nan := 0x7FC00000 }
def fmt64 : Fmt := { eb := 11, mb := 52, ieee := true, nan := 0x7FF8000000000000 }

/-- The value of a code: NaN, an infinity, or ±m · 2^e. -/
inductive FV where
  | nan
  | inf (neg : Bool)
  | fin (neg : Bool) (m : Nat) (e : Int)
  deriving DecidableEq, Repr

/-- The exponent of the unit in the last place of subnormals. -/
def Fmt.qmin (f : Fmt) : Int := 2 - (2 ^ (f.eb - 1) : Nat) - f.mb

/-- The value of code `w`. -/
def fval (f : Fmt) (w : Nat) : FV :=
  let man := w % 2 ^ f.mb
  let ex := w / 2 ^ f.mb % 2 ^ f.eb
  let neg := bit w (f.eb + f.mb)
  if f.ieee = true ∧ ex = 2 ^ f.eb - 1 then (if man = 0 then .inf neg else .nan)
  else if f.ieee = false ∧ ex = 2 ^ f.eb - 1 ∧ man = 2 ^ f.mb - 1 then .nan
  else if ex = 0 then .fin neg man f.qmin
  else .fin neg (man + 2 ^ f.mb) (f.qmin + (ex : Int) - 1)

/-- The code of an infinity. -/
def Fmt.infCode (f : Fmt) : Nat := (2 ^ f.eb - 1) * 2 ^ f.mb

/-- The code of the largest finite value. -/
def Fmt.maxCode (f : Fmt) : Nat := if f.ieee then f.infCode - 1 else 2 ^ (f.eb + f.mb) - 2

/-- The sign bit as a code. -/
def Fmt.sgn (f : Fmt) (neg : Bool) : Nat := if neg then 2 ^ (f.eb + f.mb) else 0

/-- ±(m + ε) · 2^e rounded to nearest, ties to even; `sticky` says that 0 < ε < 1. With `sat`, or in a format with no
infinity, values beyond the largest finite saturate (R173); otherwise they become infinite. -/
def froundM (f : Fmt) (sat neg : Bool) (m : Nat) (e : Int) (sticky : Bool) : Nat :=
  if m = 0 then f.sgn neg
  else
    let q0 := e + (bitLen m : Int) - (f.mb + 1)
    let q := if q0 < f.qmin then f.qmin else q0
    let mant :=
      if q ≤ e then m * 2 ^ (e - q).toNat
      else
        let s := (q - e).toNat
        let d := m / 2 ^ s
        let r := m % 2 ^ s
        let h := 2 ^ (s - 1)
        if h < r then d + 1
        else if r < h then d
        else if sticky then d + 1
        else if d % 2 = 1 then d + 1 else d
    let code := (q - f.qmin).toNat * 2 ^ f.mb + mant
    if f.maxCode < code then (if sat || !f.ieee then f.maxCode else f.infCode) + f.sgn neg
    else code + f.sgn neg

/-- A value rounded to a code. An infinity becomes the largest finite of a format without one (R173). -/
def fround (f : Fmt) (sat : Bool) : FV → Nat
  | .nan => f.nan
  | .inf neg => (if f.ieee then f.infCode else f.maxCode) + f.sgn neg
  | .fin neg m e => froundM f sat neg m e false

/-- A value with its sign turned. -/
def FV.negate : FV → FV
  | .nan => .nan
  | .inf n => .inf (!n)
  | .fin n m e => .fin (!n) m e

/-- ±m · 2^e as an integer multiple of 2^e0, for e0 ≤ e. -/
def fint (neg : Bool) (m : Nat) (e e0 : Int) : Int :=
  let v : Int := (m * 2 ^ (e - e0).toNat : Nat)
  if neg then -v else v

/-- Exact sum. An exact zero is +0 unless both terms are −0 (R171). -/
def FV.add : FV → FV → FV
  | .nan, _ => .nan
  | _, .nan => .nan
  | .inf a, .inf b => if a = b then .inf a else .nan
  | .inf a, .fin _ _ _ => .inf a
  | .fin _ _ _, .inf b => .inf b
  | .fin a m e, .fin b n g =>
    let e0 := if e ≤ g then e else g
    let s := fint a m e e0 + fint b n g e0
    if s = 0 then .fin (a && b) 0 e0 else .fin (decide (s < 0)) s.natAbs e0

/-- Exact product. -/
def FV.mul : FV → FV → FV
  | .nan, _ => .nan
  | _, .nan => .nan
  | .inf a, .inf b => .inf (a != b)
  | .inf a, .fin b n _ => if n = 0 then .nan else .inf (a != b)
  | .fin a m _, .inf b => if m = 0 then .nan else .inf (a != b)
  | .fin a m e, .fin b n g => .fin (a != b) (m * n) (e + g)

/-- Whether a value is zero. -/
def FV.isZero : FV → Bool
  | .fin _ m _ => m = 0
  | _ => false

/-- Whether a value is finite. -/
def FV.isFinite : FV → Bool
  | .fin _ _ _ => true
  | _ => false

/-- `a < b`; false with a NaN. -/
def FV.lt : FV → FV → Bool
  | .nan, _ => false
  | _, .nan => false
  | .inf a, .inf b => a && !b
  | .inf a, .fin _ _ _ => a
  | .fin _ _ _, .inf b => !b
  | .fin a m e, .fin b n g =>
    let e0 := if e ≤ g then e else g
    decide (fint a m e e0 < fint b n g e0)

/-- `a ≤ b`; false with a NaN. -/
def FV.le (a b : FV) : Bool :=
  match a, b with
  | .nan, _ => false
  | _, .nan => false
  | a, b => !(FV.lt b a)

/-- The integer value of `i`. -/
def FV.ofInt (i : Int) : FV := .fin (decide (i < 0)) i.natAbs 0

/-- Rounding to an integer, ties to even; none where not finite. -/
def FV.toIntRne : FV → Option Int
  | .fin neg m e =>
    if 0 ≤ e then some (fint neg m e 0)
    else
      let v : Int := if neg then -(m : Int) else m
      some (divRne v (2 ^ (-e).toNat))
  | _ => none

/-- Floor to an integer; none where not finite. -/
def FV.toIntFloor : FV → Option Int
  | .fin neg m e =>
    if 0 ≤ e then some (fint neg m e 0)
    else
      let v : Int := if neg then -(m : Int) else m
      some (v / (2 ^ (-e).toNat : Nat))
  | _ => none

/-- a + b, rounded once. -/
def fadd (f : Fmt) (a b : Nat) : Nat := fround f false ((fval f a).add (fval f b))
/-- a − b, rounded once. -/
def fsub (f : Fmt) (a b : Nat) : Nat := fround f false ((fval f a).add (fval f b).negate)
/-- a · b, rounded once. -/
def fmul (f : Fmt) (a b : Nat) : Nat := fround f false ((fval f a).mul (fval f b))
/-- −a. -/
def fneg (f : Fmt) (a : Nat) : Nat := fround f false (fval f a).negate

/-- a / b, rounded once. -/
def fdiv (f : Fmt) (a b : Nat) : Nat :=
  match fval f a, fval f b with
  | .nan, _ => f.nan
  | _, .nan => f.nan
  | .inf _, .inf _ => f.nan
  | .inf x, .fin y _ _ => f.infCode + f.sgn (x != y)
  | .fin x _ _, .inf y => f.sgn (x != y)
  | .fin x m e, .fin y n g =>
    if n = 0 then (if m = 0 then f.nan else f.infCode + f.sgn (x != y))
    else if m = 0 then f.sgn (x != y)
    else
      let k := f.mb + 4 + bitLen n
      let num := m * 2 ^ k
      froundM f false (x != y) (num / n) (e - g - k) (decide (num % n ≠ 0))

/-- The square root, rounded once; NaN below zero. -/
def fsqrt (f : Fmt) (a : Nat) : Nat :=
  match fval f a with
  | .nan => f.nan
  | .inf neg => if neg then f.nan else f.infCode
  | .fin neg m e =>
    if m = 0 then f.sgn neg
    else if neg then f.nan
    else
      let k := 2 * (f.mb + 4)
      let k := if (e - k) % 2 = 0 then k else k + 1
      let n := m * 2 ^ k
      let r := isqrt n
      froundM f false false r ((e - k) / 2) (decide (r * r ≠ n))

/-- The code of an integer, rounded once. -/
def fofInt (f : Fmt) (i : Int) : Nat := fround f false (FV.ofInt i)

/-- The code of num / 2^k, rounded once. -/
def fofDyadic (f : Fmt) (i : Int) (k : Int) : Nat :=
  fround f false (.fin (decide (i < 0)) i.natAbs (-k))

/-- The code of num / den, rounded once, for 0 < den. -/
def fofRatio (f : Fmt) (i : Int) (den : Nat) : Nat :=
  if i = 0 then 0
  else
    let k := f.mb + 4 + bitLen den
    let num := i.natAbs * 2 ^ k
    froundM f false (decide (i < 0)) (num / den) (-(k : Int)) (decide (num % den ≠ 0))

/-- A code taken to another format by the conversion rules of R173. -/
def fconv (src dst : Fmt) (a : Nat) : Nat := fround dst true (fval src a)

-- Cosine and sine --------------------------------------------------------------------------------------------------------

/-- π in 2^-320. -/
def piFix : Int := 0x3243f6a8885a308d313198a2e03707344a4093822299f31d0082efa98ec4e6c89452821e638d01377

/-- The sums of the cosine's and the sine's series at `r` in 2^-320, from the `k`-th term `t` on, over `n` terms. -/
def trigSeries (r : Int) : Nat → Nat → Int → Int × Int
  | 0, _, _ => (0, 0)
  | n + 1, k, t =>
    let q := trigSeries r n (k + 1) (t * r / 2 ^ 320 / (k + 1 : Nat))
    match k % 4 with
    | 0 => (q.1 + t, q.2)
    | 1 => (q.1, q.2 + t)
    | 2 => (q.1 - t, q.2)
    | _ => (q.1, q.2 - t)

/-- The cosine and the sine of an angle, all in 2^-320, to far more bits than any format here holds: reduced by quarter turns, then by
their series. -/
def trigFix (x : Int) : Int × Int :=
  let q := (4 * x + piFix) / (2 * piFix)
  let r := x - q * piFix / 2
  let v := trigSeries r 80 0 (2 ^ 320)
  match q % 4 with
  | 0 => (v.1, v.2)
  | 1 => (-v.2, v.1)
  | 2 => (-v.1, -v.2)
  | _ => (v.2, -v.1)

/-- A non-zero magnitude m · 2^e that is no value of the format, taken to the value below it in magnitude, or above. -/
def faithful (f : Fmt) (neg : Bool) (m : Nat) (e : Int) (up : Bool) : Nat :=
  let q0 := e + (bitLen m : Int) - (f.mb + 1)
  let q := if q0 < f.qmin then f.qmin else q0
  let mant := if q ≤ e then m * 2 ^ (e - q).toNat else m / 2 ^ (q - e).toNat
  (q - f.qmin).toNat * 2 ^ f.mb + mant + b2n up + f.sgn neg

/-- The cosine or sine of an angle's code: exact at 0, else one of the two values of the format that the true one lies between
(no cosine or sine of another rational is rational). -/
def ftrig (f : Fmt) (sine : Bool) (a : Nat) : Nat :=
  let w := 1 + f.eb + f.mb
  let up := Config.trigUp w sine a
  match fval f a with
  | .fin neg m e =>
    if m = 0 then (if sine then f.sgn neg else fofInt f 1)
    else if 64 < e + bitLen m then (Config.trigOpen w sine a).toNat % 2 ^ w
    else if e + bitLen m < -64 then
      (if sine then faithful f neg (m * 2 ^ 64 - 1) (e - 64) up else faithful f false (2 ^ 320 - 1) (-320) up)
    else
      let v := trigFix (if 0 ≤ e + 320 then fint neg m (e + 320) 0 else fint neg (m / 2 ^ (-(e + 320)).toNat) 0 0)
      let x := if sine then v.2 else v.1
      faithful f (decide (x < 0)) x.natAbs (-320) up
  | _ => (Config.trigOpen w sine a).toNat % 2 ^ w

/-- Whether a code is a NaN. -/
def fisNan (f : Fmt) (a : Nat) : Bool :=
  match fval f a with
  | .nan => true
  | _ => false

/-- a < b, a ≤ b on codes. -/
def flt (f : Fmt) (a b : Nat) : Bool := (fval f a).lt (fval f b)
def fle (f : Fmt) (a b : Nat) : Bool := (fval f a).le (fval f b)

/-- |a|. -/
def fabs (f : Fmt) (a : Nat) : Nat := a % 2 ^ (f.eb + f.mb)

/-- The exact value of a finite code as a rational; zero otherwise. -/
def fvalRat (v : FV) : Rat :=
  match v with
  | .fin neg m e =>
    let r : Rat := if 0 ≤ e then ((m * 2 ^ e.toNat : Nat) : Rat) else mkRat m (2 ^ (-e).toNat)
    if neg then -r else r
  | _ => 0

end Sys2Proof.Machine
end

