-- ==== Sys2Proof/Machine/RegMap.lean ====
section
/-! DEFINITION. The register map: block bases (R25, R26, R27) and, block by block, the registers each chapter
lists, with their access codes (R10), reserved bits (R11) and reset values. One row is one register or one
array of registers. -/

namespace Sys2Proof.Machine

/-- The register blocks of R25 and R26, the sync block and the Junesha status window (R27). -/
inductive Block where
  | fseq | qdsp | stn | sie | rbe | gme | bse | sme | cre | cle | dma | cam | time | hc | hbmc | fab | pwr
  | sync | eth | sw | pcie | kyd | mirr | egrd | mgteth | qspi | sdwin
  deriving DecidableEq, Repr

/-- A row of a register map. The masks are those of R10: the bits in none of them are reserved (R11).
`wide` marks a 64-bit register (R12): its upper word lies 4 bytes above. -/
structure RegRow where
  name : String
  rule : Nat
  off : Nat
  count : Nat := 1
  stride : Nat := 4
  wide : Bool := false
  rw : Nat := 0
  w1c : Nat := 0
  wo : Nat := 0
  ro : Nat := 0
  rc : Bool := false
  reset : Nat := 0
  deriving DecidableEq, Repr

/-- All 32 bits of a word. -/
def all32 : Nat := 0xFFFFFFFF
/-- All 64 bits of a 64-bit register. -/
def all64 : Nat := 0xFFFFFFFFFFFFFFFF

/-- A read-clear 32-bit saturating counter, or an array of them. -/
def rcRow (name : String) (rule off : Nat) (count : Nat := 1) (stride : Nat := 4) : RegRow :=
  { name := name, rule := rule, off := off, count := count, stride := stride, rc := true }

/-- A read-write 32-bit register with all bits writable. -/
def rwRow (name : String) (rule off : Nat) (reset : Nat := 0) (count : Nat := 1) (stride : Nat := 4) : RegRow :=
  { name := name, rule := rule, off := off, count := count, stride := stride, rw := all32, reset := reset }

/-- A read-write 64-bit register. -/
def rw64Row (name : String) (rule off : Nat) (reset : Nat := 0) (count : Nat := 1) (stride : Nat := 8) : RegRow :=
  { name := name, rule := rule, off := off, count := count, stride := stride, wide := true, rw := all64, reset := reset }

/-- A read-only register. -/
def roRow (name : String) (rule off ro : Nat) (reset : Nat := 0) (count : Nat := 1) (stride : Nat := 4) : RegRow :=
  { name := name, rule := rule, off := off, count := count, stride := stride, ro := ro, reset := reset }

/-- Counters in a row at 4-byte steps, in the order the chapter lists them. -/
def rcRows (rule : Nat) : Nat → List String → (count : Nat) → (stride : Nat) → List RegRow
  | _, [], _, _ => []
  | off, n :: ns, c, st => rcRow n rule off c st :: rcRows rule (off + 4) ns c st

/-- FMT_LOG of R206, four words. -/
def fmtLogRows (rule off : Nat) : List RegRow :=
  [ roRow "FMT_LOG.CODE" rule off 0xFF000000, roRow "FMT_LOG.FRAME_NO" rule (off + 4) all32,
    roRow "FMT_LOG.TASK_STEP" rule (off + 8) 0x03FFFFFF, roRow "FMT_LOG.ROW" rule (off + 12) all32 ]

/-- The unified-memory registers of a slice (8 fed entries) or commons (16), R118, R119. -/
def umRows (rwMap resetMap feds : Nat) : List RegRow :=
  [ { name := "UM_PORTMAP", rule := 119, off := 0x8000, rw := rwMap, reset := resetMap },
    { name := "UM_STATUS", rule := 119, off := 0x8004, w1c := 0xFE000000 },
    { name := "FED.BASE", rule := 118, off := 0x8010, count := feds, stride := 16, wide := true, ro := 0xFFFFFFFFFF },
    roRow "FED.SIZE" 118 0x8018 all32 0 feds 16,
    roRow "FED.ATTR" 118 0x801C 0xFF003FFF 0 feds 16 ]
  ++ rcRows 118 0x8200 ["ARB_STALL", "STRICT_CONFLICT", "FAB_FORCE", "PORT_ERR", "BOUND_ERR", "RO_ERR", "SYNC_VIOL",
      "UNFED", "ECC_CORR", "ECC_UNCORR", "POISON_READ"] 1 4

/-- R151, R152. -/
def fseqRows : List RegRow :=
  [ { name := "FSEQ_CTRL", rule := 152, off := 0x0000, rw := 0x1, wo := 0x2 },
    { name := "FSEQ_STATUS", rule := 152, off := 0x0004, w1c := 0xF0000000, ro := 0x0000FF07 },
    roRow "UM_SIZE" 151 0x0008 all32 0x0A000000,
    rwRow "PERIOD" 151 0x000C 50000,
    rw64Row "TREF0" 151 0x0010,
    rw64Row "FB_BASE" 151 0x0018,
    roRow "FRAME_OPEN" 151 0x0020 all32,
    roRow "FRAME_RETIRED" 151 0x0024 all32,
    rwRow "ABANDON" 151 0x0028 100000,
    { name := "SPARE_CFG", rule := 152, off := 0x002C, rw := 0xFFFF07FF, reset := 0x03E807D0 },
    { name := "SPARE_STATUS", rule := 152, off := 0x0030, ro := 0xFFFFFF3F, reset := 31 },
    roRow "FAULT_HEAD" 151 0x0034 0xF,
    roRow "BOOK_CRC" 151 0x0038 all32,
    roRow "FAULT.FRAME_NO" 151 0x0100 all32 0 16 16,
    roRow "FAULT.TASK_CODE_UNIT" 151 0x0104 all32 0 16 16,
    roRow "FAULT.STEP" 151 0x0108 all32 0 16 16,
    roRow "FAULT.TIME" 151 0x010C all32 0 16 16 ]
  ++ rcRows 151 0x0200 ["FRAMES_OPENED", "FRAMES_ABANDONED", "TASKS_REFUSED", "STOP_FAULTS", "LOAD_REFUSED", "BIST_CUT",
      "BIST_DONE", "CRC_PASSES"] 1 4

/-- R181, R182, with the slice's unified-memory registers of R118. -/
def stnRows : List RegRow :=
  [ { name := "STN_STATUS", rule := 182, off := 0x0000, w1c := 0xE0000000, ro := 0x3FF },
    { name := "RAMP_CFG", rule := 182, off := 0x0004, rw := 0xFFFF000F, reset := 0x00400003 },
    roRow "TILE_TAG" 182 0x0008 0xF3FFFFFF,
    roRow "TAB_TAG" 182 0x000C 0x83FFFFFF,
    { name := "TAB_ADDR", rule := 181, off := 0x0010, wide := true, ro := 0xFFFFFFFFFF },
    roRow "CTX0" 182 0x0018 0x83FFFFFF,
    roRow "CTX1" 182 0x001C 0x83FFFFFF ]
  ++ rcRows 181 0x0100 ["MM_STEPS", "VEC_STEPS", "ENTRIES", "TILE_LOADS", "KEEP_RELOAD", "TAB_RELOAD", "STAGE_WAIT",
      "ACC_WAIT", "ROW_DRY", "DRAIN_FREEZE", "RAMP_UP", "ACC_SAT", "FP_NAN"] 1 4
  ++ umRows 0xFFFF 0x8000 8

/-- The dispatcher blocks hold the unified-memory registers of their commons (R118). -/
def qdspRows : List RegRow := umRows all32 0x80000000 16

/-- The sixteen field descriptors of R35 and R36: lower words whole, upper words without [39:32]. -/
def tmplFdRows : Nat → List (String × Nat) → List RegRow
  | _, [] => []
  | c, (n, o) :: t =>
    rwRow n 36 (0x1000 + o) 0 c 0x80
      :: { name := n ++ ".hi", rule := 36, off := 0x1004 + o, count := c, stride := 0x80, rw := 0xFFFFFF00 }
      :: tmplFdRows c t

/-- R35, R63 to R66. -/
def sieRows : List RegRow :=
  [ { name := "SIE_CTRL", rule := 64, off := 0x0000, rw := 0x1, wo := 0x2 },
    { name := "SIE_STATUS", rule := 65, off := 0x0004, w1c := 0xE4000000, ro := 0x1800FFFF },
    { name := "SLICE_CFG", rule := 66, off := 0x0008, rw := 0x0FFFFFF0, reset := 0x07D01F40 },
    { name := "VOXEL_CFG", rule := 66, off := 0x000C, rw := 0x03FFFFFF, reset := 0x000A0A0A },
    rwRow "VT_LIMIT" 63 0x0010 4194304,
    rwRow "PT_LIMIT" 63 0x0014 8388608,
    rwRow "RESERVE_RADIUS" 63 0x0018 25600,
    rwRow "POSE_CFG" 66 0x001C 0x4E202710,
    rw64Row "PT_BASE" 63 0x0020 0 2 8,
    rw64Row "VT_BASE" 63 0x0030 0 2 8,
    rw64Row "SL_BASE" 63 0x0040 0 2 8,
    rw64Row "STG_BASE" 63 0x0050,
    rw64Row "STG_SIZE" 63 0x0058,
    { name := "SYNC_CFG", rule := 63, off := 0x0060, rw := 0x3FFF3FFF },
    { name := "RELEASE_CFG", rule := 63, off := 0x0064, rw := 0x3FFF },
    roRow "LAST_FRAME" 63 0x0068 all32,
    roRow "TMPL_ERR" 63 0x006C 0xFFFF,
    { name := "SLICE_LEN", rule := 66, off := 0x0070, rw := 0x3F, reset := 4 },
    rwRow "Z_MIN" 63 0x0074 0x80000000,
    rwRow "Z_MAX" 63 0x0078 0x7FFFFFFF,
    { name := "SENSOR_BIND", rule := 63, off := 0x0100, count := 16, rw := 0x80F7FFFF },
    rwRow "FILTER.RANGE_MIN" 63 0x0200 0 16 16,
    rwRow "FILTER.RANGE_MAX" 63 0x0204 0xFFFFFFFF 16 16,
    { name := "FILTER.INT_MIN_RET_MASK", rule := 63, off := 0x0208, count := 16, stride := 16, rw := 0xFFF, reset := 0xF00 },
    { name := "FILTER.reserved", rule := 63, off := 0x020C, count := 16, stride := 16 },
    rwRow "SELF_BOX.MIN_X" 63 0x0400 0 8 32, rwRow "SELF_BOX.MIN_Y" 63 0x0404 0 8 32,
    rwRow "SELF_BOX.MIN_Z" 63 0x0408 0 8 32, rwRow "SELF_BOX.MAX_X" 63 0x040C 0 8 32,
    rwRow "SELF_BOX.MAX_Y" 63 0x0410 0 8 32, rwRow "SELF_BOX.MAX_Z" 63 0x0414 0 8 32,
    { name := "SELF_BOX.EN", rule := 63, off := 0x0418, count := 8, stride := 32, rw := 0x1 },
    { name := "SELF_BOX.reserved", rule := 63, off := 0x041C, count := 8, stride := 32 },
    rwRow "POSE_IN" 47 0x0800 0 10 4,
    { name := "POSE_IN.reserved", rule := 47, off := 0x0828 },
    rwRow "POSE_IN.CRC" 47 0x082C,
    rwRow "TEMPLATE.PORT_LEN" 35 0x1000 0 16 0x80,
    rwRow "TEMPLATE.MODE_SRC_BLOCKS_POINTS" 35 0x1004 0 16 0x80,
    rwRow "TEMPLATE.BLOCK_OFF_STRIDE" 35 0x1008 0 16 0x80,
    rwRow "TEMPLATE.POINT_OFF_STRIDE" 35 0x100C 0 16 0x80 ]
  ++ tmplFdRows 16 [("FD_PKT_SEC", 0x10), ("FD_PKT_NS", 0x18), ("FD_BLK_TIME", 0x20), ("FD_BLK_AZ", 0x28),
      ("FD_PT_TIME", 0x30), ("FD_RANGE_X", 0x38), ("FD_Y", 0x40), ("FD_Z", 0x48), ("FD_INTENSITY", 0x50),
      ("FD_RETURN", 0x58)]
  ++ [ rwRow "TEMPLATE.POINT_DT" 35 0x1060 0 16 0x80,
    rwRow "TEMPLATE.INGRESS_LAT" 35 0x1064 0 16 0x80,
    { name := "TEMPLATE.ANGLE_BASE_VALID", rule := 35, off := 0x1068, count := 16, stride := 0x80, rw := 0x00FFFFFF },
    { name := "TEMPLATE.reserved6C", rule := 35, off := 0x106C, count := 16, stride := 0x80 },
    { name := "TEMPLATE.reserved70", rule := 35, off := 0x1070, count := 16, stride := 0x80 },
    { name := "TEMPLATE.reserved74", rule := 35, off := 0x1074, count := 16, stride := 0x80 },
    { name := "TEMPLATE.reserved78", rule := 35, off := 0x1078, count := 16, stride := 0x80 },
    { name := "TEMPLATE.reserved7C", rule := 35, off := 0x107C, count := 16, stride := 0x80 },
    rwRow "ANGLE" 63 0x2000 0 4096 4 ]
  ++ rcRows 61 0x8000 ["PKT_OK", "DECODE_ERR", "POINTS_IN", "NO_RETURN", "FILTERED", "OUT_OF_GRID", "LATE", "EARLY",
      "STAGE_DROP", "POSE_DROP", "POINT_DROP", "VOXEL_DROP", "RESERVE_REFUSED"] 16 0x40
  ++ rcRows 61 0x8400 ["UNMATCHED", "POSE_REJECT"] 1 4

/-- R206, R207. -/
def rbeRows : List RegRow :=
  [ { name := "RBE_CTRL", rule := 207, off := 0x0000, rw := 0x1, reset := 1 },
    { name := "RBE_STATUS", rule := 207, off := 0x0004, w1c := 0xC0000000, ro := 0x3F } ]
  ++ fmtLogRows 206 0x0010
  ++ rcRows 206 0x0100 ["SITES", "PROBES", "PRESENT", "ABSENT", "OUT_OF_GRID", "LEADERS", "CLEARED_LINES", "FMT_ERR"] 1 4

/-- R208, R209. -/
def gmeRows : List RegRow :=
  [ { name := "GME_CTRL", rule := 209, off := 0x0000, rw := 0x3, reset := 1 },
    { name := "GME_STATUS", rule := 209, off := 0x0004, w1c := 0xF0000000, ro := 0x7F } ]
  ++ fmtLogRows 208 0x0010
  ++ rcRows 208 0x0100 ["GATHER_ROWS", "ZERO_ROWS", "PACKED_ROWS", "SCATTER_RECORDS", "MERGED_KEYS", "SAT", "FP_NAN",
      "SEGMENTS", "PACKED_TILES", "FMT_ERR", "TRAIN_REFUSED"] 1 4

/-- R92. -/
def bseRows : List RegRow :=
  [ { name := "BSE_CTRL", rule := 92, off := 0x0000, rw := 0x1, reset := 1 },
    { name := "BSE_STATUS", rule := 92, off := 0x0004, w1c := 0xE0000000, ro := 0xFF } ]
  ++ rcRows 92 0x0100 ["LOOKUPS", "HIT", "EXPIRED", "ABSENT", "OUT_OF_GRID", "UNREACHABLE", "ORDER_ERR", "POISON",
      "NOT_READY", "WRITES", "INSERTS", "EVICT_LIVE", "WRITE_DROP", "POISON_HEAL", "REMOTE_OUT", "REMOTE_IN"] 1 4

/-- R258, R259. -/
def smeRows : List RegRow :=
  [ { name := "SME_CTRL", rule := 259, off := 0x0000, rw := 0x1, reset := 1 },
    { name := "SME_STATUS", rule := 259, off := 0x0004, w1c := 0xF8000000, ro := 0x1FF } ]
  ++ fmtLogRows 258 0x0010
  ++ [ roRow "NEXT_SEQ" 258 0x0020 all32,
    roRow "LAST_COMMIT" 258 0x0024 all32,
    rw64Row "BATCH_BASE" 258 0x0030 0 2 8,
    rw64Row "RING.RING_BASE" 258 0x0100 0 2 0x40,
    rw64Row "RING.WB_ADDR" 258 0x0108 0 2 0x40,
    { name := "RING.RING_CFG", rule := 259, off := 0x0110, count := 2, stride := 0x40, rw := 0xC000FF07, reset := 3 },
    roRow "RING.PROD_IDX" 258 0x0114 all32 0 2 0x40,
    rwRow "RING.CONS_IDX" 258 0x0118 0 2 0x40,
    { name := "RING.reserved1C", rule := 258, off := 0x011C, count := 2, stride := 0x40 },
    { name := "RING0.reserved", rule := 258, off := 0x0120, count := 8 },
    { name := "RING1.reserved", rule := 258, off := 0x0160, count := 8 },
    { name := "LAUNCH_CFG", rule := 259, off := 0x0200, rw := 0x800F1C00, reset := 0x1C00 },
    rwRow "LAUNCH_OFF" 258 0x0204 16000,
    rwRow "DST_MAC_LO" 258 0x0208,
    { name := "DST_MAC_HI", rule := 258, off := 0x020C, rw := 0xFFFF },
    rwRow "DST_IP" 258 0x0210,
    rwRow "UDP_PORTS" 258 0x0214 ]
  ++ rcRows 258 0x0400 ["BATCHES", "VALID_BATCHES", "EMPTY_BATCHES", "LATE_BATCHES", "RECORDS_TAKEN", "DUP_REMOVED",
      "TIE_EXCLUDED", "BANK_WAIT", "RING0_FULL", "RING1_FULL", "RING_CFG_ERR", "LAUNCHED", "LAUNCH_MISS", "FMT_ERR"] 1 4

/-- R234. CAM_GEOM is mapped in CRE0 alone; its camera-transform words read the active table (R305). -/
def creRows : List RegRow :=
  [ { name := "CRE_CTRL", rule := 234, off := 0x0000, rw := 0x1, reset := 1 },
    { name := "CRE_STATUS", rule := 234, off := 0x0004, w1c := 0xE0000000, ro := 0x3F },
    rwRow "CAM_GEOM.FX" 234 0x0100 0 16 0x40, rwRow "CAM_GEOM.FY" 234 0x0104 0 16 0x40,
    rwRow "CAM_GEOM.CX" 234 0x0108 0 16 0x40, rwRow "CAM_GEOM.CY" 234 0x010C 0 16 0x40,
    rwRow "CAM_GEOM.K1" 234 0x0110 0 16 0x40, rwRow "CAM_GEOM.K2" 234 0x0114 0 16 0x40,
    rwRow "CAM_GEOM.IMG" 234 0x0118 0 16 0x40,
    { name := "CAM_GEOM.ZNEAR_FEAT", rule := 234, off := 0x011C, count := 16, stride := 0x40, rw := 0xFFFF000F },
    roRow "CAM_GEOM.TX" 234 0x0120 all32 0 16 0x40, roRow "CAM_GEOM.TY" 234 0x0124 all32 0 16 0x40,
    roRow "CAM_GEOM.TZ" 234 0x0128 all32 0 16 0x40, roRow "CAM_GEOM.QW" 234 0x012C all32 0 16 0x40,
    roRow "CAM_GEOM.QX" 234 0x0130 all32 0 16 0x40, roRow "CAM_GEOM.QY" 234 0x0134 all32 0 16 0x40,
    roRow "CAM_GEOM.QZ" 234 0x0138 all32 0 16 0x40,
    { name := "CAM_GEOM.reserved", rule := 234, off := 0x013C, count := 16, stride := 0x40 } ]
  ++ rcRows 234 0x0800 ["BOXES", "REGIONS", "BEHIND", "OUTSIDE", "CAM_INVALID", "REGION_OVERFLOW", "CROPS", "SKIPPED",
      "EMPTY", "PARTIAL", "POISON"] 1 4

/-- The eight words of a transform-table entry (R304, R321); the identity has QW = 2^30. -/
def calTableRows (name : String) (rule off : Nat) : List RegRow :=
  [ roRow (name ++ ".TX") rule off all32 0 32 32, roRow (name ++ ".TY") rule (off + 4) all32 0 32 32,
    roRow (name ++ ".TZ") rule (off + 8) all32 0 32 32, roRow (name ++ ".QW") rule (off + 12) all32 0x40000000 32 32,
    roRow (name ++ ".QX") rule (off + 16) all32 0 32 32, roRow (name ++ ".QY") rule (off + 20) all32 0 32 32,
    roRow (name ++ ".QZ") rule (off + 24) all32 0 32 32, roRow (name ++ ".zero") rule (off + 28) 0 0 32 32 ]

/-- R321, R322. -/
def cleRows : List RegRow :=
  [ { name := "CLE_CTRL", rule := 322, off := 0x0000, rw := 0x1, reset := 1 },
    { name := "CLE_STATUS", rule := 322, off := 0x0004, w1c := 0xC0000000, ro := 0x000F0003 },
    { name := "GATE", rule := 321, off := 0x0008, rw := 0xFFFF, reset := 200 },
    { name := "CAL_CTRL", rule := 322, off := 0x000C, wo := 0x7 },
    roRow "ACTIVE_SEQ" 321 0x0010 all32, roRow "ACTIVE_FRAME" 321 0x0014 all32, roRow "ACC_SEQ" 321 0x0018 all32,
    rwRow "CAL_STAGE" 321 0x1000 0 264 4 ]
  ++ rcRows 321 0x0100 ["RECORDS", "SKIPPED", "GATED", "CAL_RESTART", "SNAPSHOTS", "CAL_GRANTED", "CAL_REFUSED",
      "CAL_APPLIED", "CAL_WRITE_REFUSED"] 1 4
  ++ calTableRows "ACTIVE" 304 0x2000 ++ calTableRows "COMMISSIONED" 306 0x3000

/-- R274, R275: the engine registers and its sixteen channels. -/
def dmaRows : List RegRow :=
  [ { name := "DMA_CTRL", rule := 274, off := 0x0000, rw := 0x1, reset := 1 },
    roRow "DMA_STATUS" 274 0x0004 all32,
    roRow "DMA_BOOKED" 274 0x0008 0xFFFF,
    rw64Row "CH.SRC_ADDR" 275 0x1000 0 16 0x100,
    rw64Row "CH.DST_ADDR" 275 0x1008 0 16 0x100,
    { name := "CH.IDX_ADDR", rule := 275, off := 0x1010, count := 16, stride := 0x100, wide := true, rw := 0xFFFFFFFFFF },
    { name := "CH.ROW_BYTES", rule := 275, off := 0x1018, count := 16, stride := 0x100, rw := 0x1FFFFFF },
    { name := "CH.ROWS", rule := 275, off := 0x101C, count := 16, stride := 0x100, rw := 0x1FFFF },
    rwRow "CH.SRC_STRIDE" 275 0x1020 0 16 0x100, rwRow "CH.DST_STRIDE" 275 0x1024 0 16 0x100,
    rwRow "CH.PLANE_STRIDE" 275 0x1028 0 16 0x100,
    { name := "CH.CFG", rule := 275, off := 0x102C, count := 16, stride := 0x100, rw := 0xFFFF8000 },
    rwRow "CH.PACE" 275 0x1030 0 16 0x100,
    { name := "CH.PACE_OBJ", rule := 275, off := 0x1034, count := 16, stride := 0x100, rw := 0x8F003FFF },
    { name := "CH.NOTIFY", rule := 275, off := 0x1038, count := 16, stride := 0x100, rw := 0xF0FFBFFF },
    { name := "CH.CH_CTRL", rule := 275, off := 0x103C, count := 16, stride := 0x100, rw := 0x2, wo := 0xD },
    { name := "CH.CH_STATUS", rule := 275, off := 0x1040, count := 16, stride := 0x100, w1c := 0xFC000000, ro := 0x02000007 },
    { name := "CH.CUR_SRC", rule := 275, off := 0x1048, count := 16, stride := 0x100, wide := true, ro := all64 },
    { name := "CH.CUR_DST", rule := 275, off := 0x1050, count := 16, stride := 0x100, wide := true, ro := all64 },
    roRow "CH.CUR_ROW" 275 0x1058 0x1FFFF 0 16 0x100,
    roRow "CH.CUR_BYTE" 275 0x105C all32 0 16 0x100,
    roRow "CH.LAPS" 275 0x1060 all32 0 16 0x100,
    { name := "CH.ERR_ADDR", rule := 275, off := 0x1068, count := 16, stride := 0x100, wide := true, ro := all64 },
    roRow "CH.ERR_INFO" 275 0x1070 0xF801FFFF 0 16 0x100 ]
  ++ rcRows 274 0x0100 ["LINES_READ", "LINES_WRITTEN", "INDEX_LINES", "PACE_STALLS", "PAUSES", "BUS_ERR", "POISON_READ",
      "CFG_ERR"] 1 4

/-- R232, R233. -/
def camRows : List RegRow :=
  [ { name := "CAM_CTRL", rule := 233, off := 0x0000, rw := 0x1 },
    { name := "CAM_STATUS", rule := 233, off := 0x0004, w1c := 0x80000000, ro := 0x00FFFFFF },
    { name := "CAM_LEAD", rule := 232, off := 0x0008, rw := 0xFFFF, reset := 20000 },
    { name := "CAM_GRACE", rule := 232, off := 0x000C, rw := 0xFFFF, reset := 5000 },
    rw64Row "DESC_BASE" 232 0x0010 0 2 8,
    { name := "SYNC_CFG", rule := 232, off := 0x0020, rw := 0x3FFF3FFF },
    { name := "CAM_PHY", rule := 233, off := 0x0040, count := 8, rw := 0x000FFF07, reset := 0x0005DC04 },
    { name := "CAM_BIND", rule := 233, off := 0x0100, count := 8, stride := 0x40, rw := 0x800F0703 },
    { name := "CAM_FMT", rule := 233, off := 0x0104, count := 8, stride := 0x40, rw := 0xFF070313, reset := 0x1E000000 },
    rwRow "CAM_SIZE" 233 0x0108 0 8 0x40,
    rwRow "EXPO_OFF" 232 0x010C 0 8 0x40,
    rw64Row "BUF_BASE0" 232 0x0110 0 8 0x40,
    rw64Row "BUF_BASE1" 232 0x0118 0 8 0x40,
    { name := "CAMERA.reserved20", rule := 232, off := 0x0120, count := 8, stride := 0x40 },
    { name := "CAMERA.reserved24", rule := 232, off := 0x0124, count := 8, stride := 0x40 },
    { name := "CAMERA.reserved28", rule := 232, off := 0x0128, count := 8, stride := 0x40 },
    { name := "CAMERA.reserved2C", rule := 232, off := 0x012C, count := 8, stride := 0x40 },
    { name := "CAMERA.reserved30", rule := 232, off := 0x0130, count := 8, stride := 0x40 },
    { name := "CAMERA.reserved34", rule := 232, off := 0x0134, count := 8, stride := 0x40 },
    { name := "CAMERA.reserved38", rule := 232, off := 0x0138, count := 8, stride := 0x40 },
    { name := "CAMERA.reserved3C", rule := 232, off := 0x013C, count := 8, stride := 0x40 } ]
  ++ rcRows 232 0x0800 ["FRAMES", "ACCEPTED", "REPLACED", "LATE", "BANK_BUSY", "MISSING", "TRUNCATED", "LINE_ERR",
      "LINE_CRC", "HDR_ECC_CORR", "HDR_ECC_ERR", "DT_IGNORED", "POSE_EXTRAP", "POSE_DROP"] 8 0x40
  ++ rcRows 232 0x0C00 ["UNBOUND"] 1 4

/-- R298, R299: TIME0. The reset KP and KI are the REAL32 codes of 2^-12 and 2^-16. -/
def timeRows : List RegRow :=
  [ { name := "TIME_CTRL", rule := 299, off := 0x0000, rw := 0x1, wo := 0x2 },
    { name := "TIME_STATUS", rule := 299, off := 0x0004, w1c := 0xE0000000, ro := 0x10000003 },
    { name := "TIME_NS", rule := 298, off := 0x0008, wide := true, ro := all64 },
    roRow "TIME_FRAC" 298 0x0010 0xFFFF,
    roRow "RATE" 298 0x0014 all32,
    { name := "SERVO_CFG", rule := 299, off := 0x0018, rw := 0xFF0F001F, reset := 0x0008001F },
    rwRow "LOCK_THRESH" 298 0x001C 1000,
    rwRow "KP" 298 0x0020 0x39800000, rwRow "KI" 298 0x0024 0x37800000,
    rwRow "SLEW_MAX" 298 0x0028 10000,
    rwRow "TIMEOUTS" 298 0x002C 0x000A0177,
    rwRow "MEAN_LINK_DELAY" 298 0x0030,
    { name := "TIME_SET", rule := 298, off := 0x0038, wide := true, wo := all64 },
    { name := "OFFSET_LAST", rule := 298, off := 0x0040, wide := true, ro := all64 } ]
  ++ rcRows 298 0x0100 ["SYNC_RX", "FOLLOWUP_MISS", "STEPS", "STEP_REFUSED", "OFFSET_EXCEED", "HOLDOVERS"] 1 4

/-- R298: the three registers mapped in TIME1. -/
def time1Rows : List RegRow :=
  [ roRow "TIME_STATUS" 298 0x0004 0xF0000003,
    { name := "TIME_NS", rule := 298, off := 0x0008, wide := true, ro := all64 },
    roRow "TIME_FRAC" 298 0x0010 0xFFFF ]

/-- R90, R91. -/
def hcRows : List RegRow :=
  [ { name := "HC_CTRL", rule := 91, off := 0x0000, rw := 0x3, wo := 0xC, reset := 1 },
    { name := "HC_STATUS", rule := 91, off := 0x0004, w1c := 0xC0000000, ro := 0x3 },
    { name := "HS_CFG", rule := 91, off := 0x0008, rw := 0x1F0F0000, reset := 0x0A010000 },
    { name := "HS_HORIZON", rule := 90, off := 0x000C, rw := 0x7FF, reset := 64 },
    rw64Row "HS_BASE" 90 0x0010 0x0100000000,
    roRow "HS_EPOCH" 90 0x0018 0xFFFF,
    roRow "HS_EDGES" 90 0x001C 0xFFFFFF 0x0A0A0A,
    { name := "PF_CFG", rule := 91, off := 0x0020, rw := 0xFF3F, reset := 0xC010 },
    { name := "HC_PART", rule := 91, off := 0x0024, rw := 0xF, reset := 12 },
    { name := "SHARD_CFG", rule := 90, off := 0x0028, rw := 0x80000000 },
    { name := "SHARD_MAP", rule := 90, off := 0x0100, count := 64, rw := 0x1F } ]
  ++ rcRows 90 0x0400 ["HC_HIT", "HC_MISS", "PF_ISSUED", "PF_USED", "PF_DROPPED", "ECC_CORR", "ECC_UNCORR"] 1 4

/-- R120. -/
def fabRows : List RegRow :=
  [ { name := "AGE_FAB", rule := 120, off := 0x0010, rw := 0xFFFF, reset := 4096 },
    { name := "AGE_HC", rule := 120, off := 0x0014, rw := 0xFFFF, reset := 4096 },
    { name := "AGE_DMA", rule := 120, off := 0x0018, rw := 0xFFFF, reset := 4096 },
    { name := "AGE_KYD", rule := 120, off := 0x001C, rw := 0xFFFF, reset := 4096 },
    roRow "OUTSTANDING" 120 0x0020 0x1FFF,
    { name := "HBM_FED.BASE", rule := 120, off := 0x1000, count := 64, stride := 16, wide := true, ro := 0xFFFFFFFFFF },
    roRow "HBM_FED.SIZE" 120 0x1008 all32 0 64 16,
    roRow "HBM_FED.ATTR" 120 0x100C 0xFF003FFF 0 64 16 ]
  ++ rcRows 120 0x0100 ["AGE_PROMOTE_FAB", "AGE_PROMOTE_HC", "AGE_PROMOTE_DMA", "AGE_PROMOTE_KYD", "BUS_ERR"] 1 4

/-- R453, R454. -/
def pwrRows : List RegRow :=
  [ { name := "PWR_STATUS", rule := 454, off := 0x0000, w1c := 0xC0000000, ro := 0xF },
    roRow "POWER_LIMIT" 453 0x0004 0xFFFF,
    roRow "DUTY" 453 0x0008 0x1F1F1F 0x00101010,
    roRow "POWER_NOW" 453 0x000C 0xFFFF,
    roRow "TJ_MAX" 453 0x0010 0xFFFFFF,
    roRow "HBM_TEMP" 453 0x0020 0xFF 0 6 4 ]
  ++ rcRows 453 0x0100 ["THROTTLE_MS", "CAP_MS", "POWER_UNREACHED", "PLL_UNLOCK"] 1 4

/-- R104: the four words of a sync object. REACHED reads 1 out of reset. -/
def syncRows : List RegRow :=
  [ roRow "COUNT" 104 0x0 all32 0 16384 16,
    rwRow "TARGET" 104 0x4 0 16384 16,
    { name := "STATUS", rule := 104, off := 0x8, count := 16384, stride := 16, rw := 0x8300, w1c := 0x400000,
      ro := 0xFF8000FF, reset := 0x00800000 },
    { name := "OP", rule := 104, off := 0xC, count := 16384, stride := 16, wo := 0xE0FFFFFF } ]

/-- R300, R301. -/
def ethRows : List RegRow :=
  [ { name := "PORT_CFG", rule := 301, off := 0x0000, rw := 0xE0000007 },
    { name := "PORT_STATUS", rule := 301, off := 0x0004, w1c := 0x80000000, ro := 0x70000000 },
    rwRow "MAC_ADDR_LO" 300 0x0008,
    { name := "MAC_ADDR_HI", rule := 300, off := 0x000C, rw := 0xFFFF },
    rwRow "IP_ADDR" 300 0x0010,
    rwRow "INGRESS_LAT" 300 0x0014 0x002A0000,
    rwRow "EGRESS_LAT" 300 0x0018 0x001D0000,
    rwRow "ASYM" 300 0x001C, rwRow "IN_RATE" 300 0x0020,
    roRow "TX_STAMP" 300 0x0030 all32 0 3 4,
    roRow "TX_STAMP.VALID" 300 0x003C 0x1 ]
  ++ rcRows 300 0x0100 ["RX_FRAMES", "RX_FCS_ERR", "TX_FRAMES", "TX_LINK_DOWN", "TX_STAMP_LOST", "TC_FORWARDED",
      "TC_OVERFLOW", "GATE_OVERSIZE", "LT_FAR", "IN_POLICED", "MIRROR_DROP"] 1 4

/-- R302: gate registers of the eight ports, then their lists (A at +0, B at +0x800 of each port's 4 KiB). -/
def swRows : List RegRow :=
  [ rw64Row "GATE.BASE_TIME" 302 0x0100 0 8 0x20,
    rwRow "GATE.CYCLE_TIME" 302 0x0108 1000000 8 0x20,
    { name := "GATE.GATE_CTRL", rule := 302, off := 0x010C, count := 8, stride := 0x20, rw := 0x800001FF, wo := 0x40000000 },
    { name := "GATE.GATE_STATUS", rule := 302, off := 0x0110, count := 8, stride := 0x20, w1c := 0x80000000, ro := 0x60000000 },
    rwRow "GATE_LIST.INTERVAL" 302 0x8000 0 4096 8,
    { name := "GATE_LIST.GATES", rule := 302, off := 0x8004, count := 4096, stride := 8, rw := 0xFF000000 } ]

/-- R398: the mailbox, in IOD0's PCIE block. -/
def pcieRows : List RegRow :=
  [ { name := "MBX_CTRL", rule := 398, off := 0x0100, rw := 0xFF02, wo := 0x1 },
    { name := "MBX_STATUS", rule := 398, off := 0x0104, w1c := 0xB0000000, ro := 0x40000000 },
    rwRow "MBX_REQ" 398 0x1000 0 261 4,
    roRow "MBX_RSP" 398 0x2000 all32 0 261 4 ]

/-- R434, R435. -/
def kydRows : List RegRow :=
  [ { name := "KYD_CTRL", rule := 435, off := 0x0000, rw := 0x1, wo := 0x2 },
    { name := "KYD_STATUS", rule := 435, off := 0x0004, w1c := 0xC0000000, ro := 0x3 },
    roRow "PEER" 434 0x0008 0x1F ]
  ++ rcRows 434 0x0100 ["TX_PACKETS", "RX_PACKETS", "CRC_ERR", "REPLAYS", "FEC_CORR", "FEC_UNCORR", "TRANSIT",
      "DISCARDED", "REFUSED_DOWN", "RESP_TIMEOUTS", "LINK_DOWNS"] 1 4

/-- R303. -/
def mirrRows : List RegRow :=
  [ { name := "MIRR.FILTER", rule := 303, off := 0x0000, count := 16, rw := 0x800FFFFF } ]

/-- R303. -/
def egrdRows : List RegRow :=
  [ { name := "GUARD_STATUS", rule := 303, off := 0x0000, w1c := 0x80000000 },
    roRow "VERDICT.FRAME_NO" 303 0x0010 all32 0 4 16, roRow "VERDICT.SEQ" 303 0x0014 all32 0 4 16,
    roRow "VERDICT.TOKEN" 303 0x0018 all32 0 4 16, roRow "VERDICT.VALID" 303 0x001C 0x1 0 4 16,
    rwRow "FW_LIMIT.FW_RATE" 303 0x0100 100 8 8, rwRow "FW_LIMIT.FW_BURST" 303 0x0104 16384 8 8 ]
  ++ rcRows 303 0x0200 ["GUARD_PASS", "GUARD_REFUSE", "FW_REFUSED"] 1 4

/-- R352, R353, R376: the Junesha status window; its counters are never cleared by a read. -/
def sdRows : List RegRow :=
  [ roRow "SD_STATE" 353 0x0000 0xFFFF0007, roRow "KM_STATUS" 353 0x0004 0xFFFF1F1F,
    roRow "LAST_FRAME" 352 0x0008 all32, roRow "LAST_VERDICT" 352 0x000C 0xFFFF0001,
    roRow "LAST_CELLS" 352 0x0010 all32, roRow "LAST_MISSED" 352 0x0014 all32,
    roRow "MARGIN_FLOOR" 352 0x0018 all32, roRow "MECH_CAUSE" 376 0x0020 all32,
    roRow "SD.VERDICTS" 352 0x0100 all32, roRow "SD.VALID_VERDICTS" 352 0x0104 all32, roRow "SD.DISAGREE" 352 0x0108 all32,
    roRow "SD.UNCHECKED" 352 0x010C all32, roRow "SD.UNSUPPORTED" 352 0x0110 all32, roRow "SD.BOX_CRC_ERR" 352 0x0114 all32,
    roRow "SD.CHK_LATE_COPY" 352 0x0118 all32, roRow "SD.CHK_DECODE_ERR" 352 0x011C all32,
    roRow "SD.SAFE_ENTRIES" 352 0x0120 all32, roRow "SD.READBACK_ERR" 352 0x0124 all32, roRow "SD.CAN_TX" 352 0x0128 all32 ]

/-- The registers of instance `i` of a block. Blocks whose chapters list no register have none (R25). -/
def blockRows (b : Block) (i : Nat) : List RegRow :=
  match b with
  | .fseq => fseqRows
  | .qdsp => qdspRows
  | .stn => stnRows
  | .sie => if i = 0 then sieRows else sieRows.filter (fun r => r.off < 0x0800 || 0x0830 ≤ r.off)
  | .rbe => rbeRows
  | .gme => gmeRows
  | .bse => bseRows
  | .sme => smeRows
  | .cre => if i = 0 then creRows else creRows.filter (fun r => r.off < 0x0100 || 0x0500 ≤ r.off)
  | .cle => cleRows
  | .dma => dmaRows
  | .cam => camRows
  | .time => if i = 0 then timeRows else time1Rows
  | .hc => hcRows
  | .hbmc => []
  | .fab => fabRows
  | .pwr => pwrRows
  | .sync => syncRows
  | .eth => ethRows
  | .sw => swRows
  | .pcie => if i = 0 then pcieRows else []
  | .kyd => kydRows
  | .mirr => mirrRows
  | .egrd => egrdRows
  | .mgteth => []
  | .qspi => []
  | .sdwin => sdRows

/-- One row of the block-base table: first base, instances, size of an instance. -/
structure BlockRange where
  block : Block
  base : Nat
  count : Nat
  size : Nat := 0x10000
  deriving DecidableEq, Repr

/-- R25, R26, R27. The ETH and KYD instances of I/O die 1 stand in their own rows; their instance numbers go on
from die 0's (`first`). -/
structure BlockPlace where
  range : BlockRange
  first : Nat := 0
  deriving DecidableEq, Repr

/-- The block bases of R25 to R27. -/
def blockPlaces : List BlockPlace :=
  [ { range := { block := .fseq, base := 0x20000000, count := 1 } },
    { range := { block := .qdsp, base := 0x20010000, count := 4 } },
    { range := { block := .stn, base := 0x20100000, count := 32 } },
    { range := { block := .sie, base := 0x20400000, count := 2 } },
    { range := { block := .rbe, base := 0x20420000, count := 4 } },
    { range := { block := .gme, base := 0x20460000, count := 8 } },
    { range := { block := .bse, base := 0x204E0000, count := 4 } },
    { range := { block := .sme, base := 0x20520000, count := 1 } },
    { range := { block := .cre, base := 0x20530000, count := 2 } },
    { range := { block := .cle, base := 0x20550000, count := 1 } },
    { range := { block := .dma, base := 0x20560000, count := 4 } },
    { range := { block := .cam, base := 0x205A0000, count := 2 } },
    { range := { block := .time, base := 0x205C0000, count := 2 } },
    { range := { block := .hc, base := 0x20600000, count := 1 } },
    { range := { block := .hbmc, base := 0x20610000, count := 6 } },
    { range := { block := .fab, base := 0x20680000, count := 1 } },
    { range := { block := .pwr, base := 0x20690000, count := 1 } },
    { range := { block := .sync, base := 0x20800000, count := 1, size := 0x40000 } },
    { range := { block := .eth, base := 0x21000000, count := 8 } },
    { range := { block := .sw, base := 0x21080000, count := 1 } },
    { range := { block := .pcie, base := 0x21090000, count := 1 } },
    { range := { block := .kyd, base := 0x210A0000, count := 2 } },
    { range := { block := .mirr, base := 0x210C0000, count := 1 } },
    { range := { block := .egrd, base := 0x210D0000, count := 1 } },
    { range := { block := .mgteth, base := 0x210E0000, count := 1 } },
    { range := { block := .qspi, base := 0x210F0000, count := 1 } },
    { range := { block := .eth, base := 0x21100000, count := 8 }, first := 8 },
    { range := { block := .sw, base := 0x21180000, count := 1 }, first := 1 },
    { range := { block := .pcie, base := 0x21190000, count := 1 }, first := 1 },
    { range := { block := .kyd, base := 0x211A0000, count := 2 }, first := 2 },
    { range := { block := .mirr, base := 0x211C0000, count := 1 }, first := 1 },
    { range := { block := .egrd, base := 0x211D0000, count := 1 }, first := 1 },
    { range := { block := .sdwin, base := 0x22000000, count := 1, size := 0x100000 } } ]

/-- R18: the blocks of absent dies and instances are unmapped. HBMC blocks hold no listed register. -/
def blockPresent (v : Variant) (b : Block) (i : Nat) : Bool :=
  match b with
  | .sie | .cam | .time | .sw | .pcie | .mirr | .egrd => i = 0 || v.isX2
  | .eth => i < 8 || v.isX2
  | .kyd => i < 2 || v.isX2
  | .hbmc => i < v.stacks
  | _ => true

/-- A register word found in the map: its block, instance, row, index in the row's array and which half. -/
structure RegLoc where
  block : Block
  inst : Nat
  row : RegRow
  idx : Nat
  upper : Bool
  deriving DecidableEq, Repr

/-- The row of a block that holds word offset `off`, with index and half. -/
def findRow : List RegRow → Nat → Option (RegRow × Nat × Bool)
  | [], _ => none
  | r :: rs, off =>
    if r.off ≤ off ∧ (off - r.off) / r.stride < r.count ∧ (off - r.off) % r.stride = 0 then
      some (r, (off - r.off) / r.stride, false)
    else if r.wide = true ∧ r.off + 4 ≤ off ∧ (off - r.off - 4) / r.stride < r.count
        ∧ (off - r.off - 4) % r.stride = 0 then
      some (r, (off - r.off - 4) / r.stride, true)
    else findRow rs off

/-- The block instance that holds address `a`. -/
def findBlock : List BlockPlace → Nat → Option (Block × Nat × Nat)
  | [], _ => none
  | p :: ps, a =>
    if p.range.base ≤ a ∧ a < p.range.base + p.range.count * p.range.size then
      some (p.range.block, p.first + (a - p.range.base) / p.range.size, (a - p.range.base) % p.range.size)
    else findBlock ps a

/-- The register word at address `a`, whatever the variant. -/
def regAt (a : Nat) : Option RegLoc :=
  match findBlock blockPlaces a with
  | none => none
  | some (b, i, off) =>
    match findRow (blockRows b i) off with
    | none => none
    | some (r, k, up) => some { block := b, inst := i, row := r, idx := k, upper := up }

/-- The half of a 64-bit mask or value that belongs to one word. -/
def halfOf (up : Bool) (m : Nat) : Nat := if up then m / 2 ^ 32 else m % 2 ^ 32

/-- The reset value of the register word at `a`: what an unlisted word of the register file reads as. -/
def regReset (a : Nat) : BitVec 32 :=
  match regAt a with
  | none => 0
  | some l => BitVec.ofNat 32 (halfOf l.upper l.row.reset)

/-- R14, R18: the register word at `a` in variant `v`, or none where the address is unmapped. RING[1] and the
HBM_TEMP words of unpopulated stacks are unmapped with their variant (R258, R453). -/
def mappedReg (v : Variant) (a : Nat) : Option RegLoc :=
  match regAt a with
  | none => none
  | some l =>
    if blockPresent v l.block l.inst = false then none
    else if l.block = .sme ∧ 0x140 ≤ (a % 0x10000) ∧ (a % 0x10000) < 0x180 ∧ v.isX2 = false then none
    else if l.block = .pwr ∧ l.row.name = "HBM_TEMP" ∧ v.stacks ≤ l.idx then none
    else some l

end Sys2Proof.Machine
end

