-- ==== Sys2Proof/Machine/State.lean ====
section
/-! DEFINITION. The state of the block: everything the manual gives the QM9640, as plain data, unit by unit, the outputs
it has given, and the queue of waiting commands. Register words live in `Bus.regs` (sparse: an unlisted word holds the
reset value of the register map), memory in `Bus.mem` (sparse: an unlisted byte is zero, R480). -/

namespace Sys2Proof.Machine

/-- Byte memory: address and byte, strictly rising, no zero byte listed. -/
abbrev Mem := List Host.Cell

/-- Register words by device address, strictly rising, none listed at its reset value. -/
abbrev RegFile := List (Nat × BitVec 32)

/-- A transform in the units of R47: translation in 0.25 mm, quaternion in 2^-30. -/
structure Xform where
  tx : Int := 0
  ty : Int := 0
  tz : Int := 0
  qw : Int := 2 ^ 30
  qx : Int := 0
  qy : Int := 0
  qz : Int := 0
  deriving DecidableEq, Repr

/-- A pose as a unit forms it (R49): translation in 0.25 mm, quaternion as it came out of the interpolation. -/
structure FPose where
  tx : Rat := 0
  ty : Rat := 0
  tz : Rat := 0
  qw : Rat := 1
  qx : Rat := 0
  qy : Rat := 0
  qz : Rat := 0
  deriving DecidableEq, Repr

/-- An accepted pose of the ring (R47, R48). -/
structure Pose where
  time : Nat
  x : Xform
  seq : BitVec 32 := 0
  deriving DecidableEq, Repr

/-- Observable results: read data, responses, interrupts, frames and messages that leave a unit or the device. -/
inductive Out where
  | readData (r : Requester) (a : Nat) (v : Word)
  | memData (a : Nat) (bytes : List Byte) (poisoned : Bool)
  | busError (a : Nat)
  | unsupported (e : Fin 2) (off : Nat)
  | irqMgt (a : Nat)
  | msix (e : Fin 2) (vec : Nat)
  | eth (port : Nat) (bytes : List Byte) (start : Nat)
  | toInternal (d : Nat) (bytes : List Byte)
  | mirror (port : Nat) (bytes : List Byte) (stamp : Int) (drops : List Nat)
  | can (c : Nat) (id : Nat) (data : List Byte)
  | qmp (peer : Word) (port : BitVec 16) (bytes : List Byte)
  | kyd (k : Nat) (m : KydPkt)
  | kydNak (k : Nat)
  | kydTok (m : KydTok)
  | kydLocal (f : Nat) (v : LocalVerdict)
  | kydRecord (f : Nat) (bytes : List Byte) (last : Bool)
  | startToken (mon f : Nat)
  | endToken (mon f : Nat) (zero : Bool)
  | restartToken (mon f : Nat)
  | abandonToken (f : Nat)
  | frameToken (f tref : Nat)
  | bistToken (s : Nat) (k : BistTok)
  | box (f : Nat) (bytes : List Byte)
  | endMark (f : Nat)
  | verdict (v : Verdict)
  | guardRefuse (f : Nat)
  | timeReport (status : Word)
  | tdo (bits : List Bool)
  deriving DecidableEq, Repr

/-- R408: the place of the device in its system, as configured: kind 0 single, 1 ring, 2 torus. -/
structure Topo where
  size : Nat := 1
  own : Nat := 0
  kind : Nat := 0
  xs : Nat := 1
  ys : Nat := 1
  deriving DecidableEq, Repr

/-- What a unit's step or transfer did in register space or in a peer's range: performed at the end of the same command, in the
order made. Register words read and written by a requester; accesses to part of a word (a write has a value); writes to a peer,
with what holds back the step's signals until it is acknowledged (`ack`), and the channel of a register-mode transfer; accesses to
HBM, which the history cache counts (R85); the copy of a granted calibration (R315). -/
inductive Late where
  | reg (r : Requester) (a : Nat) (v : Word)
  | read (r : Requester) (a : Nat)
  | part (a : Nat) (v : Option Word)
  | remote (a : Nat) (bytes : List Byte) (fed ack poison : Bool) (ch : Option Nat)
  | hbm (a n : Nat)
  | calCopy
  deriving DecidableEq, Repr

/-- What a unit reads, while its step or transfer runs, in the register words that are not plain stored bits: those computed from
other state, and the upper words it holds a snapshot of (R12). -/
structure View where
  live : List (Nat × Word) := []
  snaps : List (Nat × Word) := []
  deriving DecidableEq, Repr

/-- Everything reached over the fabric: memory with its poison bits (one per 8-byte granule), the register file, host memory behind the two
PCIe endpoints with the granules of it that a poisoned TLP was written to (R272), the unmapped-access counter (R14) and the outputs, newest
first. `free` numbers the next value the manual leaves open (the model's own field, not the manual's). `view` is the running unit's (the
model's own field; empty between commands). `hcWays`: HS_WAYS as HS_EN last put it in force (R91). -/
structure Bus where
  variant : Variant := .m4x1
  mem : Mem := []
  poison : List Nat := []
  regs : RegFile := []
  host0 : Mem := []
  host1 : Mem := []
  hostBad0 : List Nat := []
  hostBad1 : List Nat := []
  unmapped : Nat := 0
  out : List Out := []
  free : Nat := 0
  topo : Topo := {}
  late : List Late := []
  view : View := {}
  hcWays : Nat := 12
  sent : List (Nat × Nat × Out) := []
  lseqs : List (Nat × Nat) := []
  deriving DecidableEq, Repr

/-- R12: snapshots and held writes, by requester and address of the register's lower word. -/
structure Access where
  snaps : List ((Requester × Nat) × Word) := []
  held : List ((Requester × Nat) × Word) := []
  deriving DecidableEq, Repr

/-- A staged point (R42): its frame, sensor-frame coordinates in mm as REAL32 codes, its time and attributes. Its slice is its
time's in the frame, by the slice length latched for it. -/
structure StagedPt where
  frame : Nat
  sensor : Nat
  x : Word
  y : Word
  z : Word
  t : Int
  intensity : Nat
  ret : Nat
  deriving DecidableEq, Repr

/-- The frame-latched values of R34, R41, R51, R63, R72, R304: a copy of the register file as it stood, and the resolved
values of the fields that a latch may refuse. -/
structure Latch where
  frame : Nat
  regs : RegFile := []
  sliceNs : Nat := 1000000
  edges : BitVec 24 := 0x0A0A0A
  rule : Nat := 0
  vtLimit : Nat := 4194304
  ptLimit : Nat := 8388608
  badTmpl0 : List Nat := []
  badTmpl1 : List Nat := []
  badBind0 : List Nat := []
  badBind1 : List Nat := []
  horizon : Nat := 64
  calSeq : Word := 0
  deriving DecidableEq, Repr

/-- What has gone wrong in a frame's intake so far (R56, R62). -/
structure FrameNote where
  frame : Nat
  degraded : Bool := false
  pointDrops : Nat := 0
  voxelDrops : Nat := 0
  deriving DecidableEq, Repr

/-- The frame whose slices are being closed, and the next slice to close (R43 to R60). `poses` holds, newest first, each slice's
first point index and pose. -/
structure SieFrame where
  frame : Nat := 0
  slice : Nat := 0
  points : Nat := 0
  voxels : Nat := 0
  words : Nat := 0
  reserve : Bool := false
  full : Bool := false
  extrap : Bool := false
  poseDropped : Bool := false
  reserveSlice : Option Nat := none
  poses : List (Nat × FPose) := []
  deriving DecidableEq, Repr

/-- The two SIEs, with the pose ring they share (R42 to R65). `waiting`: a due slice's closing has begun and waits (R46, R49);
`refWait`: P_ref of the frame is still to be formed (R333); `first0`, `first1`: frames below are treated as closed (R482);
`staged0`, `staged1`: points staged so far, which place the next in its ring in memory (R63). -/
structure Intake where
  ring0 : List StagedPt := []
  ring1 : List StagedPt := []
  poses : List Pose := []
  latches : List Latch := []
  notes : List FrameNote := []
  cur : SieFrame := {}
  first0 : Nat := 0
  first1 : Nat := 0
  staged0 : Nat := 0
  staged1 : Nat := 0
  published0 : Nat := 0
  published1 : Nat := 0
  clearing0 : Bool := false
  clearing1 : Bool := false
  waiting : Bool := false
  refWait : Option Nat := none
  deriving DecidableEq, Repr

/-- R86: a stream tracker: the BSE it serves, the line of the miss that allocated it, its newest demand line, the last line it has run
ahead to, whether it has trained, and the prefetched lines no demand has used yet. -/
structure Tracker where
  bse : Nat
  first : Nat
  newest : Nat
  ahead : Nat
  trained : Bool := false
  held : List Nat := []
  deriving DecidableEq, Repr

/-- The history cache and backsight engines' own state (R73, R77, R86). `trackers` stand most recently used first. -/
structure Hist where
  newEpoch : Bool := false
  writesBegun : List Nat := []
  trackers : List Tracker := []
  deriving DecidableEq, Repr

/-- A region slot (R99). -/
structure Region where
  base : Nat
  size : Nat
  lstn : Nat
  sliceRel : Bool
  isLocal : Bool
  remoteFed : Bool
  readOnly : Bool
  narrow : Bool
  wide : Bool
  syncEn : Bool
  sync : Nat
  deriving DecidableEq, Repr

/-- A wait entry or admission condition (R131). -/
structure WaitEntry where
  en : Bool
  parity : Bool
  object : Nat
  base : Nat
  shift : Nat
  c : Int
  m : Nat
  deriving DecidableEq, Repr

/-- A signal entry (R132). -/
structure SignalEntry where
  en : Bool
  parity : Bool
  object : Nat
  deriving DecidableEq, Repr

/-- A task table entry (R122). -/
structure TaskEntry where
  cls : Nat
  inst : Nat
  safety : Bool
  strict : Bool
  histLookup : Bool
  histWrite : Bool
  regionFirst : Nat
  regionCount : Nat
  record : Bool
  shapeSlot : Nat
  shapeOff : Nat
  admission : WaitEntry
  plan : List Nat
  loadedMax : List Nat
  stepOff : Nat
  stepCount : Nat
  done : List SignalEntry
  monitorEn : Bool
  monitor : Nat
  countEn : Bool
  countSlot : Nat
  countOff : Nat
  deriving DecidableEq, Repr

/-- A sync declaration (R123). -/
structure Decl where
  credit : Bool
  parity : Bool
  object : Nat
  advTask : Nat
  advDim : Nat
  advShift : Nat
  advConst : Nat
  deriving DecidableEq, Repr

/-- The frame sequencer's book store (R124): header, task table, region table and declarations. -/
structure Book where
  crc : Word
  periodMin : Nat
  periodMax : Nat
  syncFirst : Nat
  syncCount : Nat
  length : Nat
  tasks : List TaskEntry
  regions : List Region
  decls : List Decl
  claims : List (Nat × Nat) := []
  deriving DecidableEq, Repr

/-- An open loop of a sequencer: first step inside, iterations, counter (R133); a claim loop has the claim register it
fills. -/
structure LoopRec where
  start : Nat
  count : Nat
  ctr : Nat
  claim : Option Nat := none
  deriving DecidableEq, Repr

/-- A claim register: object, old COUNT and EPOCH (R107), and the CLAIM step that filled it. -/
structure ClaimRec where
  object : Nat
  old : Word
  epoch : Nat
  step : Nat
  deriving DecidableEq, Repr

/-- A task context of a unit (R142): the task, its frame, its resolved slots and shape, and where its list stands. `due`: the step
performed whose signals are still to be given, with the step after it; `tags`: the answers these signals wait for (R79, R114);
`owed`: the acknowledgements that only the task's DONE waits for (R143); `told`: the faults of the step already reported (R75). -/
structure Ctx where
  task : Nat
  frame : Nat
  entry : TaskEntry
  slots : List Region
  dims : List Nat
  loaded : List Nat := [0, 0, 0, 0]
  loops : List LoopRec := []
  claims : List (Nat × ClaimRec) := []
  step : Nat := 0
  started : Bool := false
  stopped : Bool := false
  taint : Bool := false
  reissued : Bool := false
  tags : List Nat := []
  owed : List Nat := []
  told : List Nat := []
  due : Option (List SignalEntry × Nat) := none
  deriving DecidableEq, Repr

/-- An open frame (R137 to R145). `epochSeen`: its first BSE step has been released (R73); `histTold`, `lookTold`: its history writes,
its lookups, have been reported complete to the system (R89). -/
structure OpenFrame where
  frame : Nat
  spare : Nat
  ledger : List (Nat × Word) := []
  advances : List (Nat × Word) := []
  admitted : List Nat := []
  done : List Nat := []
  targets : List Nat := []
  fault : Option Nat := none
  unfit : Bool := false
  abandoned : Bool := false
  committed : Bool := false
  epochSeen : Bool := false
  histTold : Bool := false
  lookTold : Bool := false
  fed : List (Nat × Nat × Nat) := []
  deriving DecidableEq, Repr

/-- The frame sequencer and dispatchers (R121 to R152). -/
structure FrameSeq where
  book : Option Book := none
  openFrames : List OpenFrame := []
  next : Option Nat := none
  fresh : Bool := true
  ctxs : List ((UnitId × Fin 2) × Ctx) := []
  resync : List (Nat × Nat) := []
  histDone : List Nat := []
  ledgerPrev : List (Nat × Word) := []
  advancePrev : List (Nat × Word) := []
  spareDone : Bool := false
  spareFirst : Option Nat := none
  windowEnd : Option Nat := none
  windowFrame : Option Nat := none
  released : List Nat := []
  sysFirst : Nat := 0
  rollback : Bool := false
  corrupt : Bool := false
  reissue : List (UnitId × Fin 2) := []
  degraded : List Nat := []
  deriving DecidableEq, Repr

/-- The activity ramp's states (R164, R182). -/
inductive Ramp where
  | off | up | full | down
  deriving DecidableEq, Repr

/-- A station's data path (R153 to R182): accumulator files (rows × 64 columns, key 64·m + n), the tile in the cells, the
activation table and the holder of the accumulators. `chain`: the rows that the accumulation chain has used; `draining`: the chain has
been drained, and its last writes wait for these acknowledgements (R160). -/
structure Stn where
  acc : List (Nat × Word) := []
  accPoison : List Nat := []
  holder : Option (Fin 2) := none
  cells : List (Nat × Word) := []
  plane : List (Nat × Byte) := []
  cellPoison : List Nat := []
  cellFmt : Nat := 0
  cellKey : Option (Nat × Nat) := none
  tabData : List Word := []
  tabKey : Option (Nat × Nat × Nat) := none
  tabPoison : List Nat := []
  ramp : Ramp := .off
  chain : Nat := 0
  draining : Option (List Nat) := none
  deriving DecidableEq, Repr

/-- A camera frame being received or held for publication (R212 to R218). -/
structure CamFrame where
  k : Nat
  frame : Nat
  bank : Nat
  seq : BitVec 16
  tcam : Nat
  lines : Nat := 0
  ended : Bool := false
  stopped : Bool := false
  truncated : Bool := false
  lineErr : Bool := false
  busErr : Bool := false
  extrap : Bool := false
  poseDropped : Bool := false
  pose : Option FPose := none
  poseDone : Bool := false
  feAt : Nat := 0
  replaced : Bool := false
  image : List Byte := []
  deriving DecidableEq, Repr

/-- A camera front end (R210 to R221). `last`: the registers as latched for the newest window (R214). -/
structure CamDie where
  frames : List CamFrame := []
  busy : List (Nat × Nat) := []
  latches : List (Nat × RegFile) := []
  published0 : Nat := 0
  published1 : Nat := 0
  lastPub : Option Nat := none
  last : Option RegFile := none
  deriving DecidableEq, Repr

/-- A batch being formed or delivered (R247 to R256). `zeroShape`: its SM_BOXES never issued, or its frame was abandoned (R251);
`ring0`, `ring1`, `eth`: disposed of on that output (R252). -/
structure Batch where
  frame : Nat
  bank : Nat
  slots : Nat := 0
  boxes : Nat := 0
  tieExcluded : Nat := 0
  dupRemoved : Nat := 0
  recordsDone : Bool := false
  zeroShape : Bool := false
  needVerdict : Bool := true
  cause : Option Nat := none
  verdict : Option Verdict := none
  committed : Bool := false
  seq : Word := 0
  degraded : Bool := false
  ring0 : Bool := false
  ring1 : Bool := false
  eth : Bool := false
  deriving DecidableEq, Repr

/-- The SME's header buffer and batches (R249 to R256). -/
structure Select where
  verdicts : List Verdict := []
  batches : List Batch := []
  bankWaits : List Nat := []
  deriving DecidableEq, Repr

/-- R271: a transfer error: its code, its side, its row, the failing address, and whether it came after FULL without ACK. -/
structure DmaErr where
  code : Nat
  write : Bool
  row : Nat
  addr : Nat
  post : Bool := false
  deriving DecidableEq, Repr

/-- What a register-mode DMA channel keeps beside its registers (R267 to R271): lines written since START (W), the pacing object's
COUNT at START (C0), destination bytes of the lap, whether the lap has had its HALF, index lines fetched in the lap, the lines of the
block read whose writing has still to come, whether a lap has ended without ACK, the FENCE that waits and the writes it waits for,
the error that a STOPPING channel drains after, and whether it was aborted. -/
structure DmaCh where
  written : Nat := 0
  c0 : Word := 0
  lapBytes : Nat := 0
  half : Bool := false
  idxLines : Nat := 0
  buf : List (Nat × List (Byte × Bool)) := []
  posted : Bool := false
  fencing : Bool := false
  fence : List Nat := []
  fail : Option DmaErr := none
  aborted : Bool := false
  deriving DecidableEq, Repr

/-- The servo states of R283. -/
inductive Servo where
  | free | acquire | locked | holdover
  deriving DecidableEq, Repr

/-- A gate list (R289): GATES and INTERVAL of each entry, CYCLE_TIME, BASE_TIME, and the entry whose gate states apply. -/
structure GateRun where
  entries : List (Byte × Nat) := []
  cycle : Nat := 1000000
  base : Nat := 0
  idx : Nat := 0
  deriving DecidableEq, Repr

/-- Where a queued frame came from: forwarded (with its corrected ingress stamp, 2^-16 ns), the management cluster, or a batch. -/
inductive Origin where
  | forwarded (stamp : Int)
  | management
  | batch (frame seq seg segs : Nat)
  deriving DecidableEq, Repr

/-- A frame waiting in an egress queue (R291). -/
structure QFrame where
  bytes : List Byte
  launch : Option Nat := none
  origin : Origin
  deriving DecidableEq, Repr

/-- One sensor port (R288 to R292, R294, R296, R297, R300). `busyUntil` is in ps, `fwTokens` and `inTokens` (the egress guard's and the
ingress policer's buckets, with the device time they were filled at) in thousandths of a bit, `segOk` the batch whose segment 0 the guard
passed last, `drops` the copies that the mirror has lost. -/
structure Port where
  queues : List (Nat × QFrame) := []
  stamps : List (Nat × Nat × Nat) := []
  gate : GateRun := {}
  pend : Option (Nat × GateRun) := none
  busyUntil : Int := 0
  fwTokens : Nat := 131072000
  fwAt : Int := 0
  inTokens : Nat := 0
  inAt : Int := 0
  drops : Nat := 0
  segOk : Option (Nat × Nat) := none
  deriving DecidableEq, Repr

/-- Device time, the servo and the sensor network (R276 to R303). `rest`: what the ticks have left below 2^-16 ns, so that no correction is
lost to rounding (R276). `held`: a step waiting for its alignment, in 2^-16 ns, and whether the servo decided it; `decided`: device time at
the decision. Times of the servo are in ns. -/
structure Net where
  time : Nat := 0
  frac : Nat := 0
  rest : Rat := 0
  rate : Rat := 0
  held : Option (Int × Bool) := none
  decided : Int := 0
  servo : Servo := .free
  integ : Rat := 0
  lockN : Nat := 0
  lastAdj : Option Int := none
  lastMeas : Int := 0
  holdSince : Int := 0
  syncPend : Option SyncMsg := none
  macs : List (Nat × (BitVec 48 × Nat × Int)) := []
  ports : List Port := List.replicate 16 {}
  deriving DecidableEq, Repr

/-- One CLE accumulator (R310, R313); floats as binary64 codes. -/
structure Accum where
  count : Nat := 0
  gated : Nat := 0
  first : Nat := 0
  last : Nat := 0
  sumW : BitVec 64 := 0
  sumWr2 : BitVec 64 := 0
  g : List (BitVec 64) := List.replicate 6 0
  a : List (BitVec 64) := List.replicate 21 0
  deriving DecidableEq, Repr

/-- A frame's slice poses as SIE0 passed them (R309). -/
structure PoseBank where
  frame : Nat := 0
  slices : Nat := 0
  poses : List (Nat × Option FPose) := []
  deriving DecidableEq, Repr

/-- The Closure Engine and the calibration steps (R304 to R319). -/
structure Calib where
  accs : List Accum := List.replicate 16 {}
  pend0 : List (Nat × Accum) := []
  pend1 : List (Nat × Accum) := []
  bank0 : PoseBank := {}
  bank1 : PoseBank := {}
  writing : Bool := false
  grantState : Nat := 0
  pendingAt : Option Nat := none
  openedSince : Nat := 0
  everApplied : Bool := false
  changed : Bool := false
  deriving DecidableEq, Repr

/-- The device states of R381. -/
inductive Dev where
  | off | boot | selftest | config | commission | armed | run | safe
  deriving DecidableEq, Repr

/-- A checker grid cell (R327): points, least and greatest z (0.25 mm), and the count for each polygon. -/
structure Cell where
  any : Nat := 0
  zmin : Int := 0
  zmax : Int := 0
  counted : Bool := false
  counts : List (Nat × Nat) := []
  deriving DecidableEq, Repr

/-- A delivered box in machine coordinates (R333). -/
structure CovBox where
  cx : Int
  cy : Int
  cz : Int
  l : Nat
  w : Nat
  h : Nat
  c : Int
  s : Int
  deriving DecidableEq, Repr

/-- What the checker saw of one sensor in a frame (R366). -/
structure SensorSeen where
  sensor : Nat
  copies : Nat := 0
  seq : Option Nat := none
  time : Option Int := none
  raw : List Byte := []
  deriving DecidableEq, Repr

/-- A frame as the Junesha die holds it: grid, boxes, marks (R325 to R337, R362, R366, R367). `stretch` numbers the stretch in RUN in
which its grid closed (R368). -/
structure CheckFrame where
  frame : Nat
  stretch : Option Nat := none
  cells : List (Nat × Cell) := []
  closed : Bool := false
  occ : List Nat := []
  ready : Bool := false
  unchecked : Bool := false
  pref : Option (Option FPose) := none
  boxes : List (List Byte) := []
  ended : Bool := false
  seen : List SensorSeen := []
  cams : List (Nat × Nat × Nat × Word × Bool) := []
  timing : Bool := false
  unfit : Option Nat := none
  issued : Bool := false
  deriving DecidableEq, Repr

/-- A timing monitor's frame (R361). -/
structure MonRec where
  mon : Nat
  frame : Nat
  start : Option Nat := none
  restarted : Bool := false
  ended : Bool := false
  lateSeen : Bool := false
  longSeen : Bool := false
  deriving DecidableEq, Repr

/-- R315: a slot of the Junesha die's calibration record in flash: its sequence, CAL_SEQ, and the CRC of the 32 entries. -/
structure CalRec where
  valid : Bool := false
  seq : Nat := 0
  calSeq : Word := 0
  crc : Word := 0
  deriving DecidableEq, Repr

/-- The Junesha safety die (R323 to R377, R381 to R385). `pulseA`, `pulseB`: when each output's latest test pulse began; `safeCrc`: the
CRC of its copy of the SAFE set; `disarmed`: frames (16 bits) whose monitors an ABANDON disarmed; `sramPending`: the bank of an
uncorrectable error that the verdict being issued meets. -/
structure Sd where
  state : Dev := .boot
  cause : Nat := 0
  latched : Bool := false
  mech : Word := 0
  halted : Bool := false
  railLost : Bool := false
  safeA : Bool := false
  safeB : Bool := false
  pulseA : Option Nat := none
  pulseB : Option Nat := none
  lastCyclic : Option Nat := none
  stretch : Nat := 0
  frames : List CheckFrame := []
  lastFrame : Nat := 0
  lastValid : Bool := false
  lastReason : BitVec 16 := 0
  lastCells : Word := 0
  lastMissed : Word := 0
  lastDisagree : Bool := false
  lastUnchecked : Bool := false
  history : List Bool := []
  invalidRun : Nat := 0
  verdicts : Nat := 0
  mons : List MonRec := []
  disarmed : List Nat := []
  lateTiming : Bool := false
  schedule : Option (Nat × Nat) := none
  runFirst : Option Nat := none
  nextVerdict : Option Nat := none
  stationPass : List Nat := List.replicate 32 0
  pendingCause : Option Nat := none
  persists : List Nat := []
  arming : Option Source := none
  armAt : Nat := 0
  sweeping : Bool := false
  bookCrc : Word := 0
  bookValid : Bool := false
  counter : Nat := 0
  causeLog : List (Nat × Word × Nat) := []
  windowWrites : List (Nat × Word) := []
  flashCause : Nat := 0
  flashFrame : Nat := 0
  injLog : List (Nat × Bool) := []
  testLatch : List Nat := []
  sweepTrip : Bool := false
  offsetAlarms : Nat := 0
  lateMarks : Nat := 0
  calRec0 : CalRec := { valid := true }
  calRec1 : CalRec := {}
  sramPending : Option (BitVec 24) := none
  safeCrc : Option Word := none
  deriving DecidableEq, Repr

/-- An SDO segmented transfer (R396). -/
structure SdoXfer where
  index : Nat
  sub : Nat
  down : Bool
  data : List Byte
  size : Nat := 0
  toggle : Bool := false
  last : Nat := 0
  deriving DecidableEq, Repr

/-- An event-log record (R394). -/
structure LogRec where
  time : Nat
  index : Nat
  sub : Nat
  source : Nat
  code : Nat
  deriving DecidableEq, Repr

/-- A configuration copy in QSPI flash: its bytes as R401 lays them out, none where it is erased. -/
structure CfgCopy where
  bytes : List Byte := []
  deriving DecidableEq, Repr

/-- An image slot (R404 to R406): the bytes it holds. `delivered`: the accepted image, of SEC_VERSION 0 and IMG_VERSION 0, that a part is
taken to come with; the manual does not give its bytes. -/
structure ImgSlot where
  bytes : List Byte := []
  delivered : Bool := false
  deriving DecidableEq, Repr

/-- Whom a request still being executed is answered (R383, R396 to R398): an SDO client, with the frame that says it was done, or a
QMP peer with the request's header. -/
inductive Reply where
  | sdo (c : Fin 2) (done : List Byte)
  | qmp (peer : Nat) (port : BitVec 16) (hdr : List Byte)
  deriving DecidableEq, Repr

/-- A QMP write run (R397): the entry it writes and the bytes so far. -/
structure QmpRun where
  index : Nat
  sub : Nat
  data : List Byte
  deriving DecidableEq, Repr

/-- The object dictionary, its transports, the configuration flash and firmware slots (R386 to R407). QMP peers are
numbered: a UDP peer by its address, the mailbox 2^32, a device over Kydor 2^33 + its number. `applied`: the configuration copy
has been applied since reset (R402). -/
structure Mgmt where
  od : List (Nat × List Byte) := []
  safe : List (Nat × List Byte) := []
  pending : List (Nat × List Byte) := []
  pendingAt : Nat := 0
  cmdRefused : Nat := 0
  sdoAborts : Nat := 0
  safeConfirms : Nat := 0
  cfgWrites : Nat := 0
  log : List LogRec := []
  sdo0 : Option SdoXfer := none
  sdo1 : Option SdoXfer := none
  qmpLast : List (Nat × (Nat × List Byte)) := []
  qmpRuns : List (Nat × QmpRun) := []
  armReply : Option Reply := none
  applied : Bool := false
  modelBank : Nat := 0
  model0 : List Byte := []
  model1 : List Byte := []
  cfgSeq : Word := 0
  cfgSource : Nat := 2
  cfgSkipped : Nat := 0
  copyA : CfgCopy := {}
  copyB : CfgCopy := {}
  slot0 : ImgSlot := { delivered := true }
  slot1 : ImgSlot := {}
  running : Nat := 0
  sdSlot1 : ImgSlot := {}
  secMin : Nat := 0
  bistRunning : List Nat := []
  unitResults : List (Nat × List Byte) := []
  stationResults : List (Nat × List Byte) := []
  powerLimit : Option Nat := none
  deriving DecidableEq, Repr

/-- What a transaction waiting for its COMPLETION was (R411, R418). -/
inductive TagUse where
  | read (a len : Nat)
  | write (a n : Nat) (ch : Option Nat)
  | lookup (statusAt featAt bse : Nat)
  | histWrite (bse : Nat)
  deriving DecidableEq, Repr

/-- Kydor links and the system's reports (R408 to R432). `tags`: the port a transaction left by, and what it is; `replays`: by port, the
packet last replayed and how often. -/
structure Kydor where
  tags : List (Nat × (Nat × TagUse)) := []
  nextTag : Nat := 0
  replays : List (Nat × (Nat × Nat)) := []
  states : List (Nat × Byte) := []
  links : List (Nat × Nat) := []
  startReady : List Nat := []
  retired : List (Nat × Nat) := []
  histDone : List (Nat × Nat) := []
  lookDone : List (Nat × Nat) := []
  locals : List ((Nat × Nat) × LocalVerdict) := []
  own : List (Nat × LocalVerdict) := []
  latchedSystem : Bool := false
  runAt : Option (Nat × Bool) := none
  records : List (Nat × List Byte) := []
  sysCrcs : List (Nat × Word) := []
  deriving DecidableEq, Repr

/-- Clocks, power, temperature, start-up and test (R436 to R466). -/
structure Plat where
  mainHeld : Bool := true
  bootStep : Nat := 1
  bootCode : Nat := 0
  testMode : Bool := false
  sdPg : Bool := true
  mainPg : Bool := false
  pllOn : Bool := false
  shdnLow : Bool := false
  tripped : Option Nat := none
  hbmFailed : List Nat := []
  pendLimit : Option Nat := none
  pendAt : Nat := 0
  msAt : Nat := 0
  riseSince : Option Nat := none
  thermSince : Option Nat := none
  coolSince : Option Nat := none
  unreachSince : Option Nat := none
  hbmHot : List Nat := []
  hbmRefresh2 : List Nat := []
  pcieDown : List Nat := []
  pcieReset : List Nat := []
  tapEnabled : Bool := false
  tapIr : List (Nat × Nat) := []
  boundary : List (Nat × List Bool) := []
  highz : List Nat := []
  golden : List (BitVec 64 × BitVec 64) := List.replicate 15 (0, 0)
  deriving DecidableEq, Repr

/-- The machine: its units, and the commands waiting, first in, first out. -/
structure State where
  bus : Bus := {}
  access : Access := {}
  intake : Intake := {}
  hist : Hist := {}
  fseq : FrameSeq := {}
  stns : List Stn := List.replicate 32 {}
  cams : List CamDie := List.replicate 2 {}
  select : Select := {}
  dma : List DmaCh := List.replicate 64 {}
  net : Net := {}
  calib : Calib := {}
  sd : Sd := {}
  mgmt : Mgmt := {}
  kydor : Kydor := {}
  plat : Plat := {}
  pending : List Instr := []
  deriving DecidableEq, Repr

/-- Why a step stops with a fault. No command of this block does: the manual states an outcome for every condition (R4),
a bus error or a refusal included, and the block goes on. -/
inductive Fault where
  /-- Raised by no meaning; safe. -/
  | none
  deriving DecidableEq, Repr

/-- Why a step is refused. -/
inductive Refusal where
  /-- Raised by the dispatch of a command that has no meaning yet, under its mnemonic; safe. -/
  | notModelled (mnemonic : String)
  deriving DecidableEq, Repr

/-- The machine of variant `v` right after reset: BOOT, main dies held in reset, every register at its reset value, no
command waiting (R450, R451). -/
def State.resetOf (v : Variant) : State := { bus := { variant := v } }

/-- The machine right after reset; the variant is the M4X1 of the manual's examples. -/
def State.reset : State := State.resetOf .m4x1

end Sys2Proof.Machine
end

