-- ==== Sys2Proof/Machine/Ops.lean ====
section
/-! DEFINITION. The operations every unit shares: register words and their fields, counters, memory with its poison bits,
the address map of R21 to R24, sync objects (R104, R105), fed ranges and landings (R108 to R112), and outputs. -/

namespace Sys2Proof.Machine

-- Block bases (R25, R26, R27) --------------------------------------------------------------------------------------

abbrev fseqB : Nat := 0x20000000
abbrev qdspB (q : Nat) : Nat := 0x20010000 + q * 0x10000
abbrev stnB (s : Nat) : Nat := 0x20100000 + s * 0x10000
abbrev sieB (d : Nat) : Nat := 0x20400000 + d * 0x10000
abbrev rbeB (q : Nat) : Nat := 0x20420000 + q * 0x10000
abbrev gmeB (g : Nat) : Nat := 0x20460000 + g * 0x10000
abbrev bseB (q : Nat) : Nat := 0x204E0000 + q * 0x10000
abbrev smeB : Nat := 0x20520000
abbrev creB (c : Nat) : Nat := 0x20530000 + c * 0x10000
abbrev cleB : Nat := 0x20550000
abbrev dmaB (q : Nat) : Nat := 0x20560000 + q * 0x10000
abbrev camB (d : Nat) : Nat := 0x205A0000 + d * 0x10000
abbrev timeB (d : Nat) : Nat := 0x205C0000 + d * 0x10000
abbrev hcB : Nat := 0x20600000
abbrev fabB : Nat := 0x20680000
abbrev pwrB : Nat := 0x20690000
abbrev syncB (n : Nat) : Nat := 0x20800000 + (n % 16384) * 16
abbrev iodB (d : Nat) : Nat := 0x21000000 + d * 0x100000
/-- The MAC block of device-wide sensor port `p` (R26). -/
abbrev ethB (p : Nat) : Nat := iodB (p / 8) + (p % 8) * 0x10000
abbrev swB (d : Nat) : Nat := iodB d + 0x80000
abbrev pcieB : Nat := iodB 0 + 0x90000
/-- The block of Kydor port `k` (R26). -/
abbrev kydB (k : Nat) : Nat := iodB (k / 2) + 0xA0000 + (k % 2) * 0x10000
abbrev mirrB (d : Nat) : Nat := iodB d + 0xC0000
abbrev egrdB (d : Nat) : Nat := iodB d + 0xD0000
abbrev sdB : Nat := 0x22000000

-- Register words ---------------------------------------------------------------------------------------------------

/-- The stored word at register address `a`. -/
def Bus.reg (b : Bus) (a : Nat) : Nat := (sget (regReset a) b.regs a).toNat

/-- The stored word at `a` set to the low 32 bits of `v`. -/
def Bus.setReg (b : Bus) (a v : Nat) : Bus := { b with regs := sset (regReset a) b.regs a (BitVec.ofNat 32 v) }

/-- The stored 64-bit register at `a`. -/
def Bus.reg64 (b : Bus) (a : Nat) : Nat := b.reg a + 2 ^ 32 * b.reg (a + 4)

/-- The stored 64-bit register at `a` set to `v`. -/
def Bus.setReg64 (b : Bus) (a v : Nat) : Bus := (b.setReg a v).setReg (a + 4) (v / 2 ^ 32)

/-- Field [hi:lo] of the word at `a`. -/
def Bus.field (b : Bus) (a hi lo : Nat) : Nat := bits (b.reg a) hi lo

/-- Field [hi:lo] of the word at `a` set to `v`. -/
def Bus.setField (b : Bus) (a hi lo v : Nat) : Bus := b.setReg a (setBits (b.reg a) hi lo v)

/-- Bit `i` of the word at `a`. -/
def Bus.flag (b : Bus) (a i : Nat) : Bool := bit (b.reg a) i

/-- Bit `i` of the word at `a` set to `v`: how a status or W1C bit is raised or lowered by hardware (R10, R13). -/
def Bus.setFlag (b : Bus) (a i : Nat) (v : Bool) : Bus := b.setField a i i (b2n v)

/-- A 32-bit saturating counter (R10's RC fields) advanced by `n`. -/
def Bus.bump (b : Bus) (a n : Nat) : Bus := b.setReg a (Nat.min (b.reg a + n) 0xFFFFFFFF)

/-- A counter advanced by one. -/
def Bus.inc (b : Bus) (a : Nat) : Bus := b.bump a 1

/-- An output appended (newest first). -/
def Bus.emit (b : Bus) (o : Out) : Bus := { b with out := o :: b.out }

/-- A list of register words set, each field of `vs` at 4-byte steps from `a`. -/
def Bus.setRegs (b : Bus) (a : Nat) : List Nat → Bus
  | [] => b
  | v :: vs => (b.setReg a v).setRegs (a + 4) vs

/-- The next free byte, for a value the manual leaves open. -/
def Bus.fresh (b : Bus) : Byte × Bus := (Config.freeByte b.free, { b with free := b.free + 1 })

/-- The next `n` free bytes. -/
def Bus.freshN (b : Bus) (n : Nat) : List Byte × Bus :=
  (tab n (fun i => Config.freeByte (b.free + i)), { b with free := b.free + n })

-- Memory -----------------------------------------------------------------------------------------------------------

/-- The byte at address `a` of a sparse memory; an unlisted byte is zero (R480). -/
def Mem.rd (m : Mem) (a : Nat) : Byte := sget 0 m a

/-- The memory with byte `a` written, in canonical form. -/
def Mem.wr (m : Mem) (a : Nat) (v : Byte) : Mem := sset 0 m a v

/-- `n` bytes from `a`. -/
def Mem.rdN (m : Mem) (a : Nat) : Nat → List Byte
  | 0 => []
  | n + 1 => m.rd a :: Mem.rdN m (a + 1) n

/-- Bytes written from `a` on. -/
def Mem.wrN (m : Mem) (a : Nat) : List Byte → Mem
  | [] => m
  | v :: vs => Mem.wrN (m.wr a v) (a + 1) vs

/-- The memory is in canonical form: addresses strictly rising, no zero byte listed. -/
def Mem.wf (m : Mem) : Bool := scanon (fun _ => (0 : Byte)) none m

/-- Byte `a` of device memory. -/
def Bus.rd (b : Bus) (a : Nat) : Byte := b.mem.rd a

/-- `n` bytes of device memory from `a`, as stored. -/
def Bus.rdN (b : Bus) (a n : Nat) : List Byte := b.mem.rdN a n

/-- Whether any byte of [a, a + n) lies in a poisoned 8-byte granule (R102). -/
def Bus.poisoned (b : Bus) (a n : Nat) : Bool :=
  b.poison.any (fun g => decide (g * 8 < a + n ∧ a < g * 8 + 8))

/-- The granules [g, g + k) marked poisoned. -/
def addPoison : List Nat → Nat → Nat → List Nat
  | p, _, 0 => p
  | p, g, k + 1 => addPoison (nins p g) (g + 1) k

/-- The poison bits after a write of `n` bytes at `a` (R102): a poisoned write poisons every granule it touches; an
unpoisoned one clears those it writes whole. -/
def poisonAfter (p : List Nat) (a n : Nat) (bad : Bool) : List Nat :=
  if bad then (if n = 0 then p else addPoison p (a / 8) ((a + n - 1) / 8 + 1 - a / 8))
  else p.filter (fun g => decide (¬(a ≤ g * 8 ∧ g * 8 + 8 ≤ a + n)))

/-- Bytes written to device memory with their poison bit. -/
def Bus.store (b : Bus) (a : Nat) (bs : List Byte) (bad : Bool) : Bus :=
  { b with mem := b.mem.wrN a bs, poison := poisonAfter b.poison a bs.length bad }

/-- Bytes written to the host memory behind endpoint `e` with their poison (R272). -/
def Bus.putHost (b : Bus) (e a : Nat) (bs : List Byte) (bad : Bool := false) : Bus :=
  if e = 0 then { b with host0 := b.host0.wrN a bs, hostBad0 := poisonAfter b.hostBad0 a bs.length bad }
  else { b with host1 := b.host1.wrN a bs, hostBad1 := poisonAfter b.hostBad1 a bs.length bad }

/-- The host memory behind endpoint `e`, and whether a granule of [a, a + n) there holds poison. -/
def Bus.hostMem (b : Bus) (e : Nat) : Mem := if e = 0 then b.host0 else b.host1
def Bus.hostPoison (b : Bus) (e a n : Nat) : Bool :=
  (if e = 0 then b.hostBad0 else b.hostBad1).any (fun g => decide (g * 8 < a + n ∧ a < g * 8 + 8))

/-- The region [a, a + n) of device memory zeroed: every listed byte and poison bit in it is dropped. -/
def Bus.zero (b : Bus) (a n : Nat) : Bus :=
  { b with
    mem := b.mem.filter (fun c => decide (¬(a ≤ c.1 ∧ c.1 < a + n)))
    poison := b.poison.filter (fun g => decide (¬(a ≤ g * 8 ∧ g * 8 < a + n))) }

/-- The 32-bit little-endian value at `a`, and other widths (R9). -/
def Bus.rdNat (b : Bus) (a n : Nat) : Nat := leNat (b.rdN a n)

-- The address map ---------------------------------------------------------------------------------------------------

/-- Where an address lies (R21): unified memory, intake table SRAM, register space, HBM, a peer, or nowhere. -/
inductive Place where
  | um
  | intake
  | regs
  | hbm
  | remote (dev off : Nat)
  | nowhere
  deriving DecidableEq, Repr

/-- R21, R22: the place of a local address. -/
def placeLocal (v : Variant) (a : Nat) : Place :=
  if a < 0x0A000000 then .um
  else if 0x10000000 ≤ a ∧ a < 0x12000000 then .intake
  else if 0x20000000 ≤ a ∧ a < 0x30000000 then .regs
  else if 0x100000000 ≤ a ∧ a < v.hbmEnd then .hbm
  else .nowhere

/-- R24: an own-device remote address is the local address [33:0]. -/
def Bus.localAddr (b : Bus) (a : Nat) : Nat :=
  if 0x8000000000 ≤ a ∧ a < 2 ^ 40 ∧ 1 < b.topo.size ∧ a / 2 ^ 34 % 32 = b.topo.own then a % 2 ^ 34 else a

/-- R21, R24: the place of a device address. -/
def Bus.place (b : Bus) (a : Nat) : Place :=
  if 0x8000000000 ≤ a then
    if 2 ^ 40 ≤ a then .nowhere
    else
      let dev := a / 2 ^ 34 % 32
      let off := a % 2 ^ 34
      if b.topo.size ≤ 1 ∨ b.topo.size ≤ dev then .nowhere
      else if dev = b.topo.own then placeLocal b.variant off
      else if off < 0x0A000000 ∨ (0x20000000 ≤ off ∧ off < 0x30000000) then .remote dev off
      else .nowhere
  else placeLocal b.variant a

/-- Two addresses in one range, or in ranges that adjoin (R21). -/
def Place.joins : Place → Place → Bool
  | .um, .um => true
  | .intake, .intake => true
  | .regs, .regs => true
  | .hbm, .hbm => true
  | .remote d o, .remote e p => d = e && (decide (o < 0x0A000000) == decide (p < 0x0A000000))
  | _, _ => false

/-- R21: no byte of [a, a + n) lies outside every range. -/
def Bus.served (b : Bus) (a n : Nat) : Bool :=
  n = 0 || (b.place a).joins (b.place (a + n - 1))

/-- R414: the next port and device on the route from this device to `dst`, none where it is this device. -/
def Topo.hop (t : Topo) (dst : Nat) : Option (Nat × Nat) :=
  let x := t.own % t.xs
  let y := t.own / t.xs
  let dx := dst % t.xs
  let dy := dst / t.xs
  if x ≠ dx then
    let d := (dx + t.xs - x) % t.xs
    if 0 < d ∧ 2 * d ≤ t.xs then some (0, y * t.xs + (x + 1) % t.xs) else some (1, y * t.xs + (x + t.xs - 1) % t.xs)
  else if y ≠ dy then
    let d := (dy + t.ys - y) % t.ys
    if 0 < d ∧ 2 * d ≤ t.ys then some (2, ((y + 1) % t.ys) * t.xs + x) else some (3, ((y + t.ys - 1) % t.ys) * t.xs + x)
  else none

/-- R409: the ports that the topology uses on each device. -/
def Topo.ports (t : Topo) : Nat := if t.kind = 1 then 3 else if t.kind = 2 then 15 else 0

/-- R415: the link out of port `k` is a dateline. -/
def Topo.crosses (t : Topo) (k : Nat) : Bool :=
  let x := t.own % t.xs
  let y := t.own / t.xs
  if k = 0 then decide (x + 1 = t.xs) else if k = 1 then decide (x = 0) else if k = 2 then decide (y + 1 = t.ys) else decide (y = 0)

/-- R418: the port a request to `dst` leaves by is UP. -/
def Bus.reach (b : Bus) (dst : Nat) : Bool :=
  match b.topo.hop dst with
  | none => true
  | some (k, _) => decide (b.field (kydB k + 4) 1 0 = 2)

/-- R411, R412, R434: a packet leaves by Kydor port `k`: counted, given the next LSEQ, and kept for a replay, the 64 latest of the port. -/
def Bus.kydPost (b : Bus) (k : Nat) (o : Out) : Bus :=
  let n := (alook b.lseqs k).getD 0
  let mine := b.sent.filter (fun x => decide (x.1 = k))
  { b.inc (kydB k + 0x100) with
    lseqs := aset b.lseqs k ((n + 1) % 4096)
    sent := (k, n, o) :: (mine.take 63 ++ b.sent.filter (fun x => decide (x.1 ≠ k))) }

/-- R412: what port `k` sends again from packet `q` onwards, oldest first; nothing where it no longer holds that packet. -/
def Bus.replayFrom (b : Bus) (k q : Nat) : List Out :=
  let mine := b.sent.filter (fun x => decide (x.1 = k))
  match mine.find? (fun x => decide (x.2.1 = q)) with
  | none => []
  | some x => x.2.2 :: ((mine.takeWhile (fun x => decide (x.2.1 ≠ q))).reverse.map (·.2.2))

/-- R413, R418, R427: a safety-control packet of a system: the manager's goes to every worker, a worker's to the manager; a port that is
not UP refuses its own. The outputs record it once. -/
def Bus.kydToken (b : Bus) (o : Out) : Bus :=
  let dsts := if b.topo.own = 0 then (List.range b.topo.size).drop 1 else [0]
  (dsts.foldl (fun b d =>
    match b.topo.hop d with
    | none => b
    | some (k, _) => if b.reach d then b.kydPost k o else b.inc (kydB k + 0x120)) b).emit o

/-- The slices and commons (R93): the register base of the unit that holds address `a` of unified memory. -/
def umUnit (a : Nat) : Nat :=
  if a < 0x08000000 then stnB (a / 0x400000) else qdspB ((a - 0x08000000) / 0x800000)

/-- R93: the bank of address `a` in its slice or commons. -/
def umBank (a : Nat) : Nat := if a < 0x08000000 then a % 0x400000 / 0x40000 else a % 0x800000 / 0x40000

/-- R94, R119: the bank of `a` is in the narrow class. -/
def Bus.narrowBank (b : Bus) (a : Nat) : Bool := b.flag (umUnit a + 0x8000) (umBank a)

-- Sync objects ------------------------------------------------------------------------------------------------------

/-- The words of object `n` (R104). -/
def Bus.count (b : Bus) (n : Nat) : Nat := b.reg (syncB n)
def Bus.target (b : Bus) (n : Nat) : Nat := b.reg (syncB n + 4)
def Bus.kind (b : Bus) (n : Nat) : Nat := b.field (syncB n + 8) 9 8
def Bus.epoch (b : Bus) (n : Nat) : Nat := b.field (syncB n + 8) 7 0

/-- R104: REACHED. -/
def Bus.reached (b : Bus) (n : Nat) : Bool := decide (b.target n ≤ b.count n)

/-- R104: an interrupt to the management cluster when REACHED of object `n` becomes 1, `was` being its value before. -/
def Bus.reachIrq (b : Bus) (n : Nat) (was : Bool) : Bus :=
  let b := b.setFlag (syncB n + 8) 23 (b.reached n)
  if !was && b.reached n && b.flag (syncB n + 8) 15 then b.emit (.irqMgt (syncB n)) else b

/-- COUNT of object `n` set. -/
def Bus.setCount (b : Bus) (n v : Nat) : Bus := (b.setReg (syncB n) v).reachIrq n (b.reached n)

/-- TARGET of object `n` set. -/
def Bus.setTarget (b : Bus) (n v : Nat) : Bus := (b.setReg (syncB n + 4) v).reachIrq n (b.reached n)

/-- R104, R108: a refusal on object `n`. -/
def Bus.refuse (b : Bus) (n : Nat) : Bus :=
  let a := syncB n + 8
  (b.setFlag a 22 true).setField a 31 24 (Nat.min (b.field a 31 24 + 1) 255)

/-- R105: ADD `k`; on an ARRIVAL object refused unless it comes from a fed-range landing. -/
def Bus.add (b : Bus) (n k : Nat) (landing : Bool := false) : Bus :=
  if b.kind n = 1 ∧ landing = false then b.refuse n else b.setCount n ((b.count n + k) % 2 ^ 32)

/-- R105: SET `k`. -/
def Bus.set (b : Bus) (n k : Nat) : Bus :=
  let b := b.setCount n (k % 2 ^ 32)
  b.setField (syncB n + 8) 7 0 ((b.epoch n + 1) % 256)

/-- R105: FETCH_ADD `k`: the old COUNT and EPOCH, or none for EXHAUSTED. -/
def Bus.fetchAdd (b : Bus) (n k : Nat) : Bus × Option (Nat × Nat) :=
  if b.kind n ≠ 2 then (b.refuse n, none)
  else if b.reached n then (b, none)
  else (b.setCount n ((b.count n + k) % 2 ^ 32), some (b.count n, b.epoch n))

/-- R105: WAIT_GE. -/
def Bus.waitGe (b : Bus) (n t : Nat) : Bool :=
  decide ((b.count n + 2 ^ 32 - t % 2 ^ 32) % 2 ^ 32 < 2 ^ 31)

/-- R104, R105: what a write of object `n`'s OP word performs. -/
def Bus.syncOp (b : Bus) (n w : Nat) : Bus :=
  match bits w 31 29 with
  | 0 => b.add n (bits w 23 0)
  | 1 => b.set n (bits w 23 0)
  | _ => b

-- Fed ranges --------------------------------------------------------------------------------------------------------

/-- The unit of unified memory that an address lies in: slices 0 to 31, then the four commons (R21, R93). -/
def umIndex (a : Nat) : Nat := if a < 0x08000000 then a / 0x400000 else 32 + (a - 0x08000000) / 0x800000

/-- The fed-range table of unit `i` of unified memory (R108, R118): its first entry's address and its length. -/
def umTable (i : Nat) : Nat × Nat := if i < 32 then (stnB i + 0x8010, 8) else (qdspB (i - 32) + 0x8010, 16)

/-- The fed-range tables of the units that hold [a, a + n) (R108). -/
def fedTables (a n : Nat) : List (Nat × Nat) :=
  if a < 0x0A000000 then tab (umIndex (a + n - 1) + 1 - umIndex a) (fun i => umTable (umIndex a + i)) else [(fabB + 0x1000, 64)]

/-- An enabled entry of a fed-range table: base, one past its end, frames sharing it, arrival object. -/
structure FedEntry where
  at' : Nat
  base : Nat
  stop : Nat
  frames : Nat
  object : Nat
  deriving DecidableEq, Repr

/-- R118: the fed entry at register address `e`, if enabled. -/
def Bus.fedAt (b : Bus) (e : Nat) : Option FedEntry :=
  let w := b.reg (e + 12)
  if bit w 31 then
    let base := b.reg64 e
    some { at' := e, base := base, stop := base + 64 * b.reg (e + 8), frames := bits w 30 24, object := bits w 13 0 }
  else none

/-- The enabled entries of one table. -/
def Bus.fedsIn (b : Bus) (t : Nat × Nat) : List FedEntry := (List.range t.2).filterMap (fun i => b.fedAt (t.1 + 16 * i))

/-- The fed ranges registered in the tables of the units that hold [a, a + n), each once. -/
def Bus.feds (b : Bus) (a n : Nat) : List FedEntry :=
  ((fedTables a n).flatMap b.fedsIn).foldl (fun l e =>
    if l.any (fun x => decide (x.base = e.base ∧ x.stop = e.stop ∧ x.object = e.object)) then l else l ++ [e]) []

/-- Bytes that [a, a + n) shares with [x, y). -/
def overlap (a n x y : Nat) : Nat := Nat.min (a + n) y - Nat.max a x

/-- R109: the landing of `n` bytes at `a` counted in each fed range it touches. -/
def Bus.countLanding (b : Bus) (a n : Nat) : Bus :=
  (b.feds a n).foldl (fun b e => if overlap a n e.base e.stop = 0 then b else
    b.add e.object (ceilDiv (overlap a n e.base e.stop) 64) true) b

/-- R109, R111: whether every byte of [a, a + n) lies in a fed range. -/
def Bus.inFed (b : Bus) (a n : Nat) : Bool :=
  decide (n ≤ lsum ((b.feds a n).map (fun e => overlap a n e.base e.stop)))

/-- R111: a write refused at its landing point: counted in UNFED, UM_STATUS.UNFED set. -/
def Bus.unfed (b : Bus) (a : Nat) : Bus :=
  (b.inc (umUnit a + 0x821C)).setFlag (umUnit a + 0x8004) 27 true

/-- What became of a write transaction: performed, refused as a bus error (R21, R23), or refused as unfed (R111). -/
inductive Landed where
  | done
  | busErr
  | unfed
  deriving DecidableEq, Repr

/-- R21, R120: a bus error, counted. -/
def Bus.busErr (b : Bus) : Bus := b.inc (fabB + 0x110)

/-- The register words that the bytes `bs` from `a` on fall in, in ascending address: a whole word with its value, or, with
false, part of one (at most `fuel` words). -/
def regPieces : Nat → Nat → List Byte → List (Nat × Bool × Word)
  | 0, _, _ => []
  | _, _, [] => []
  | f + 1, a, bs =>
    let k := 4 - a % 4
    (a / 4 * 4, decide (k = 4 ∧ 4 ≤ bs.length), BitVec.ofNat 32 (leNat (bs.take k) * 2 ^ (8 * (a % 4)))) :: regPieces f (a + k) (bs.drop k)

/-- R106: the requester is an SIE (R23). -/
def isSie : Requester → Bool
  | .unit n => decide (n = 37 ∨ n = 38)
  | _ => false

/-- One write of `r` into memory or register space (R21, R23, R109, R111, R112): a fabric transaction, or the contiguous
bytes that a step writes through a slot at once. `src` says how it was issued; `ch` is the channel of a register-mode transfer. -/
def Bus.writeTx (b : Bus) (r : Requester) (a : Nat) (bs : List Byte) (src : WriteSrc) (ack bad : Bool) (ch : Option Nat := none) :
    Bus × Landed :=
  if bs = [] then (b, .done)
  else if b.served a bs.length = false then (b.busErr, .busErr)
  else
    let l := b.localAddr a
    match b.place a with
    | .um =>
      match src with
      | .direct => (b.store l bs bad, .done)
      | .slot en own =>
        if en && b.inFed l bs.length then (if own then b.store l bs bad else (b.store l bs bad).countLanding l bs.length, .done)
        else (b.unfed l, .unfed)
    | .hbm =>
      let b := { b with late := b.late ++ [Late.hbm l bs.length] }
      match src with
      | .direct => (b.store l bs bad, .done)
      | .slot _ own => (if own then b.store l bs bad else (b.store l bs bad).countLanding l bs.length, .done)
    | .intake => if isSie r then (b.store l bs bad, .done) else (b.busErr, .busErr)
    | .regs =>
      ({ b with late := b.late ++ (regPieces bs.length l bs).map (fun x => if x.2.1 then Late.reg r x.1 x.2.2 else .part x.1 (some x.2.2)) },
        .done)
    | .remote d _ =>
      if b.reach d then
        let fed := match src with | .direct => true | .slot en _ => en
        ({ b with late := b.late ++ [Late.remote a bs fed ack bad ch] }, .done)
      else ((b.inc (kydB (match b.topo.hop d with | some (k, _) => k | none => 0) + 0x120)).busErr, .busErr)
    | .nowhere => (b.busErr, .busErr)

/-- The pieces of [a, a + n) that fall in one 64-byte line each (R21): address and length. -/
def lines : Nat → Nat → Nat → List (Nat × Nat)
  | 0, _, _ => []
  | _, _, 0 => []
  | f + 1, a, n =>
    let k := Nat.min n (64 - a % 64)
    (a, k) :: lines f (a + k) (n - k)

/-- Two outcomes in turn: the first refusal stands. -/
def Landed.and : Landed → Landed → Landed
  | .done, r => r
  | l, _ => l

/-- A write of any length, line by line (R21). -/
def Bus.writeLines (b : Bus) (q : Requester) (src : WriteSrc) (ack bad : Bool) : List (Nat × Nat) → List Byte → Bus × Landed
  | [], _ => (b, .done)
  | (a, k) :: ls, bs =>
    let r := b.writeTx q a (bs.take k) src ack bad
    let t := Bus.writeLines r.1 q src ack bad ls (bs.drop k)
    (t.1, r.2.and t.2)

/-- A write of the bytes `bs` at `a`: register-configured writes go line by line (R21), a step's write through a slot counts
as one write (R109). -/
def Bus.write (b : Bus) (r : Requester) (a : Nat) (bs : List Byte) (src : WriteSrc) (ack bad : Bool) : Bus × Landed :=
  match src with
  | .direct => b.writeLines r src ack bad (lines (bs.length / 64 + 2) a bs.length) bs
  | .slot _ _ => b.writeTx r a bs src ack bad

/-- The granules of [a, a + n) marked poisoned where the range lies in unified memory or HBM (R102). -/
def Bus.markPoison (b : Bus) (a n : Nat) : Bus :=
  if n = 0 then b
  else match b.place a with
    | .um | .hbm =>
      { b with poison := addPoison b.poison (b.localAddr a / 8) ((b.localAddr a + n - 1) / 8 + 1 - b.localAddr a / 8) }
    | _ => b

/-- A register-configured write of an engine (R112): unchecked against fed ranges; false where any part was refused. -/
def Bus.put (b : Bus) (q : Requester) (a : Nat) (bs : List Byte) (bad : Bool := false) : Bus × Bool :=
  let r := b.write q a bs .direct false bad
  (r.1, r.2 = .done)

-- The state -----------------------------------------------------------------------------------------------------------

/-- The bus replaced through `f`; every other unit is untouched. -/
def State.onBus (s : State) (f : Bus → Bus) : State := { s with bus := f s.bus }

/-- An output of the block. -/
def State.emit (s : State) (o : Out) : State := s.onBus (·.emit o)

/-- A safety-control packet sent (R413). -/
def State.token (s : State) (o : Out) : State := s.onBus (·.kydToken o)

/-- Device time is at least `now` (ns); the fraction stands (R276). -/
def State.at (s : State) (now : Nat) : State :=
  if s.net.time < now then { s with net := { s.net with time := now } } else s

/-- Device time in ns (R276). -/
def State.now (s : State) : Nat := s.net.time

/-- A safety parameter's or configuration entry's key: index and sub-index. -/
abbrev odKey (idx sub : Nat) : Nat := idx * 256 + sub

/-- The defaults of the SAFE entries of one number (chapters 12 to 16); other entries default to 0 or nothing. -/
def safeDefault (k : Nat) : Nat :=
  match k with
  | 0x510001 => 500
  | 0x510002 => 20
  | 0x510003 => 2000
  | 0x510004 => 100
  | 0x510005 => 20
  | 0x700005 => 1
  | 0x701001 => 1
  | 0x701002 => 1
  | 0x701003 => 21
  | 0x701004 => 3
  | 0x702001 => 1000
  | 0x702002 => 2
  | 0x702003 => 160
  | 0x702004 => 500
  | 0x703001 => 100
  | 0x703002 => 10
  | 0x704001 => 0x010
  | 0x704002 => 0
  | 0x704003 => 10
  | 0x705001 => 20000
  | 0x706001 => 1
  | 0x706002 => 0xFFFF
  | 0x900001 => 1
  | 0x900004 => 1
  | 0x900005 => 1
  | _ => 0

/-- The active bytes of a SAFE entry, none where it still has its default (R392). -/
def State.safeBytes (s : State) (k : Nat) : Option (List Byte) := alook s.mgmt.safe k

/-- The active value of a SAFE entry. -/
def State.safeNat (s : State) (k : Nat) : Nat :=
  match s.safeBytes k with
  | some b => leNat b
  | none => safeDefault k

/-- T_f in ns (R136). -/
def Bus.tf (b : Bus) : Nat := b.reg (fseqB + 0x0C) * 1000

/-- R136: t_ref of frame `f`. -/
def Bus.tref (b : Bus) (f : Nat) : Nat := b.reg64 (fseqB + 0x10) + f * b.tf

/-- The DEADLINE in ns (0x7050:01). -/
def State.deadlineNs (s : State) : Nat := s.safeNat 0x705001 * 1000

/-- R6, R42: the frame whose window holds device time `t`, if it is not before frame 0's. -/
def Bus.frameOf (b : Bus) (t : Int) : Option Nat :=
  let f := (t - (b.reg64 (fseqB + 0x10) : Int)) / (b.tf : Int) + 1
  if b.tf = 0 ∨ f < 0 then none else some f.toNat

end Sys2Proof.Machine
end

