-- ==== Sys2Proof/Machine/Geom.lean ====
section
/-! DEFINITION. Vectors, quaternions and poses on float codes: normalising (R304), rotating, and the pose at an instant formed from
the pose ring (R49). Sums and products are taken left to right, each operation rounded once. -/

namespace Sys2Proof.Machine

/-- A vector of float codes. -/
structure V3 where
  x : Nat
  y : Nat
  z : Nat
  deriving DecidableEq, Repr

/-- A quaternion of float codes. -/
structure Quat where
  w : Nat
  x : Nat
  y : Nat
  z : Nat
  deriving DecidableEq, Repr

/-- A rotation matrix, by rows. -/
structure Mat where
  a : V3
  b : V3
  c : V3
  deriving DecidableEq, Repr

/-- A rational rounded once. -/
def fofRat (f : Fmt) (r : Rat) : Nat := fofRatio f r.num r.den

/-- a·b + c·d + e·g, left to right. -/
def fdot (f : Fmt) (u v : V3) : Nat := fadd f (fadd f (fmul f u.x v.x) (fmul f u.y v.y)) (fmul f u.z v.z)

def v3add (f : Fmt) (u v : V3) : V3 := { x := fadd f u.x v.x, y := fadd f u.y v.y, z := fadd f u.z v.z }
def v3sub (f : Fmt) (u v : V3) : V3 := { x := fsub f u.x v.x, y := fsub f u.y v.y, z := fsub f u.z v.z }
def v3scale (f : Fmt) (k : Nat) (v : V3) : V3 := { x := fmul f k v.x, y := fmul f k v.y, z := fmul f k v.z }

/-- u × v. -/
def v3cross (f : Fmt) (u v : V3) : V3 :=
  { x := fsub f (fmul f u.y v.z) (fmul f u.z v.y), y := fsub f (fmul f u.z v.x) (fmul f u.x v.z),
    z := fsub f (fmul f u.x v.y) (fmul f u.y v.x) }

/-- The Euclidean norm. -/
def v3norm (f : Fmt) (v : V3) : Nat := fsqrt f (fdot f v v)

/-- The dot product of two quaternions. -/
def qdot (f : Fmt) (p q : Quat) : Nat :=
  fadd f (fadd f (fadd f (fmul f p.w q.w) (fmul f p.x q.x)) (fmul f p.y q.y)) (fmul f p.z q.z)

/-- R304: a quaternion normalised. -/
def qunit (f : Fmt) (q : Quat) : Quat :=
  let n := fsqrt f (qdot f q q)
  { w := fdiv f q.w n, x := fdiv f q.x n, y := fdiv f q.y n, z := fdiv f q.z n }

/-- The rotation matrix of a unit quaternion. -/
def qmat (f : Fmt) (q : Quat) : Mat :=
  let two (a : Nat) : Nat := fadd f a a
  let p (a b : Nat) : Nat := fmul f a b
  let one := fofInt f 1
  { a := { x := fsub f one (two (fadd f (p q.y q.y) (p q.z q.z))), y := two (fsub f (p q.x q.y) (p q.w q.z)),
           z := two (fadd f (p q.x q.z) (p q.w q.y)) }
    b := { x := two (fadd f (p q.x q.y) (p q.w q.z)), y := fsub f one (two (fadd f (p q.x q.x) (p q.z q.z))),
           z := two (fsub f (p q.y q.z) (p q.w q.x)) }
    c := { x := two (fsub f (p q.x q.z) (p q.w q.y)), y := two (fadd f (p q.y q.z) (p q.w q.x)),
           z := fsub f one (two (fadd f (p q.x q.x) (p q.y q.y))) } }

/-- R v. -/
def mapply (f : Fmt) (m : Mat) (v : V3) : V3 := { x := fdot f m.a v, y := fdot f m.b v, z := fdot f m.c v }

/-- Rᵀ v. -/
def mapplyT (f : Fmt) (m : Mat) (v : V3) : V3 :=
  { x := fdot f { x := m.a.x, y := m.b.x, z := m.c.x } v, y := fdot f { x := m.a.y, y := m.b.y, z := m.c.y } v,
    z := fdot f { x := m.a.z, y := m.b.z, z := m.c.z } v }

/-- A transform in a unit's own arithmetic: rotation matrix of the normalised quaternion, and translation in units of `1/k` of
0.25 mm (k = 1: 0.25 mm; k = 4: mm; k = 4000: m). -/
structure Rigid where
  r : Mat
  t : V3
  deriving DecidableEq, Repr

/-- A pose in format `f`, its translation divided by `k`. -/
def FPose.rigid (f : Fmt) (k : Nat) (p : FPose) : Rigid :=
  { r := qmat f (qunit f { w := fofRat f p.qw, x := fofRat f p.qx, y := fofRat f p.qy, z := fofRat f p.qz }),
    t := { x := fofRat f (p.tx / k), y := fofRat f (p.ty / k), z := fofRat f (p.tz / k) } }

/-- A transform in the integers of R47 as a pose. -/
def Xform.pose (x : Xform) : FPose :=
  let q (i : Int) : Rat := mkRat i (2 ^ 30)
  { tx := x.tx, ty := x.ty, tz := x.tz, qw := q x.qw, qx := q x.qx, qy := q x.qy, qz := q x.qz }

/-- R v + t. -/
def Rigid.apply (f : Fmt) (g : Rigid) (v : V3) : V3 := v3add f (mapply f g.r v) g.t

/-- Rᵀ (v − t). -/
def Rigid.invApply (f : Fmt) (g : Rigid) (v : V3) : V3 := mapplyT f g.r (v3sub f v g.t)

/-- The transform-table entry or pose record in eight words at register address `a`. -/
def Bus.xform (b : Bus) (a : Nat) : Xform :=
  let s (i : Nat) : Int := sext 32 (b.reg (a + 4 * i))
  { tx := s 0, ty := s 1, tz := s 2, qw := s 3, qx := s 4, qy := s 5, qz := s 6 }

/-- The table entry at `a` set. -/
def Bus.setXform (b : Bus) (a : Nat) (x : Xform) : Bus :=
  b.setRegs a [toU 32 x.tx, toU 32 x.ty, toU 32 x.tz, toU 32 x.qw, toU 32 x.qx, toU 32 x.qy, toU 32 x.qz]

/-- R48, R316: the squared norm of a quaternion lies within 1 ± 2^-10. -/
def Xform.normOk (x : Xform) : Bool :=
  let n := x.qw * x.qw + x.qx * x.qx + x.qy * x.qy + x.qz * x.qz
  decide (2 ^ 60 - 2 ^ 50 ≤ n ∧ n ≤ 2 ^ 60 + 2 ^ 50)

-- Poses at an instant (R49) ----------------------------------------------------------------------------------------------------

/-- R49: the normalised linear interpolation, in REAL32, of two poses at parameter `s` (the second's sign aligned to the first's);
the translation is interpolated exactly. -/
def interpolate (p q : Pose) (s : Rat) : FPose :=
  let code (i : Int) : Nat := fofDyadic fmt32 i 30
  let unitOf (x : Xform) : Quat := qunit fmt32 { w := code x.qw, x := code x.qx, y := code x.qy, z := code x.qz }
  let a := unitOf p.x
  let b0 := unitOf q.x
  let b := if flt fmt32 (qdot fmt32 a b0) 0 then
      { w := fneg fmt32 b0.w, x := fneg fmt32 b0.x, y := fneg fmt32 b0.y, z := fneg fmt32 b0.z } else b0
  let k := fofRat fmt32 s
  let mix (u v : Nat) : Nat := fadd fmt32 u (fmul fmt32 k (fsub fmt32 v u))
  let r := qunit fmt32 { w := mix a.w b.w, x := mix a.x b.x, y := mix a.y b.y, z := mix a.z b.z }
  let val (c : Nat) : Rat := fvalRat (fval fmt32 c)
  let lerp (u v : Int) : Rat := u + s * (v - u)
  { tx := lerp p.x.tx q.x.tx, ty := lerp p.x.ty q.x.ty, tz := lerp p.x.tz q.x.tz, qw := val r.w, qx := val r.x,
    qy := val r.y, qz := val r.z }

/-- R49: how the pose for an instant stands: formed (extrapolated or not), dropped, or to be waited for. -/
inductive PoseResult where
  | formed (p : FPose) (extrap : Bool)
  | dropped
  | wait
  deriving DecidableEq, Repr

/-- R49: the rows of the table, from the top, for instant `m` given in units of 1/2 ns (2m); `waitOver` says that the wait for P_b is
over. The ring is oldest first. -/
def formPose (ring : List Pose) (m2 : Int) (gap extrap : Nat) (waitOver : Bool) : PoseResult :=
  let pa := (ring.filter (fun p => decide (2 * (p.time : Int) ≤ m2))).getLast?
  let pb := ring.find? (fun p => decide (m2 < 2 * (p.time : Int)))
  let frac (x y : Pose) : Rat := mkRat (m2 - 2 * (x.time : Int)) (2 * (y.time - x.time))
  match pa, pb with
  | some a, _ =>
    if 2 * (a.time : Int) = m2 then .formed a.x.pose false
    else
      match pb with
      | some b => if b.time - a.time ≤ gap then .formed (interpolate a b (frac a b)) false else .dropped
      | none =>
        if waitOver = false then .wait
        else
          match ring.reverse with
          | n1 :: n0 :: _ =>
            if m2 - 2 * (n1.time : Int) ≤ 2 * (extrap : Int) then .formed (interpolate n0 n1 (frac n0 n1)) true else .dropped
          | _ => .dropped
  | none, some _ => .dropped
  | none, none => if waitOver then .dropped else .wait

end Sys2Proof.Machine
end

