-- ==== Sys2Proof/Machine/Flags.lean ====
section
/-! DEFINITION. What a write or a read does to the bits of one register word, by the access codes of R10: read-write bits take
the written value, W1C bits clear, reserved and read-only bits stay, read-clear counters clear; hardware events that
coincide are kept (R13). -/

namespace Sys2Proof.Machine

/-- R10, R11: the stored word after a write of `v`: RW bits written, each 1 clears a W1C bit, the rest unchanged. -/
def wordAfterWrite (rw w1c old v : Nat) : Nat :=
  (old &&& (0xFFFFFFFF ^^^ rw) &&& (0xFFFFFFFF ^^^ (w1c &&& v))) ||| (v &&& rw)

/-- R13: the word after a write that coincides with hardware setting the W1C bits `hw`: they read 1. -/
def wordAfterWriteWith (rw w1c old v hw : Nat) : Nat := wordAfterWrite rw w1c old v ||| (hw &&& w1c)

/-- The mask of one word of a row. -/
def RegLoc.rwMask (l : RegLoc) : Nat := halfOf l.upper l.row.rw
def RegLoc.w1cMask (l : RegLoc) : Nat := halfOf l.upper l.row.w1c
def RegLoc.woMask (l : RegLoc) : Nat := halfOf l.upper l.row.wo
def RegLoc.roMask (l : RegLoc) : Nat := halfOf l.upper l.row.ro

/-- The bits of a word that read back: WO and reserved bits read 0 (R10, R11). -/
def RegLoc.readMask (l : RegLoc) : Nat :=
  if l.row.rc then 0xFFFFFFFF else l.rwMask ||| l.w1cMask ||| l.roMask

/-- R10: the register at `l` (address `a`) after a plain write of `v`. -/
def Bus.writeBits (b : Bus) (l : RegLoc) (a v : Nat) : Bus :=
  b.setReg a (wordAfterWrite l.rwMask l.w1cMask (b.reg a) v)

/-- R10, R13: an RC counter read: its value, and the counter then holding the `k` events of the reading cycle. -/
def Bus.readClear (b : Bus) (a k : Nat) : Nat × Bus := (b.reg a, b.setReg a (Nat.min k 0xFFFFFFFF))

/-- The status bit `i` of the W1C register at `a` raised (R10, R13). -/
def Bus.raise (b : Bus) (a i : Nat) : Bus := b.setFlag a i true

/-- A counter advanced and a status bit raised, as most refusals do. -/
def Bus.note (b : Bus) (cnt st i : Nat) : Bus := (b.inc cnt).raise st i

end Sys2Proof.Machine
end

