-- ==== Sys2Proof/Machine/Operands.lean ====
section
/-! DEFINITION. The step descriptor and its operand forms: decoding (R127, R128, R131, R132), indices and dims (R129), predicates
(R130), wait thresholds (R131), region slots and their resolution (R99, R100, R138), and the issue checks of R101 and
R110. -/

namespace Sys2Proof.Machine

-- Units ---------------------------------------------------------------------------------------------------------------

/-- R142: the quadrant dispatcher that serves a unit. -/
def unitQuad : UnitId → Nat
  | .stn s => s.val / 8
  | .rbe q => q.val
  | .gme g => g.val / 2
  | .bse q => q.val
  | .dma c => c.val / 16
  | .sme => 0
  | .cre _ => 0
  | .cle => 0

/-- R106: the requester number of a unit: stations 0 to 31, then the blocks of R25 in their order. -/
def unitNo : UnitId → Nat
  | .stn s => s.val
  | .rbe q => 39 + q.val
  | .gme g => 43 + g.val
  | .bse q => 51 + q.val
  | .sme => 55
  | .cre c => 56 + c.val
  | .cle => 58
  | .dma c => 59 + c.val / 16

/-- The unified-memory register block in which a unit's R101 and R102 events count: its own slice's, or its quadrant's
commons'. -/
def unitUm : UnitId → Nat
  | .stn s => stnB s.val
  | u => qdspB (unitQuad u)

/-- R122: class and instance of a physical unit; a station task runs on the physical station of its LSTN. -/
def unitClass : UnitId → Nat
  | .stn _ => 0
  | .rbe _ => 1
  | .gme _ => 2
  | .bse _ => 3
  | .dma _ => 4
  | .sme => 5
  | .cre _ => 6
  | .cle => 7

/-- R122, R138: the physical unit of class `c`, instance `i`, in a frame whose spare is `spare`. -/
def physUnit (c i spare : Nat) : Option UnitId :=
  match c with
  | 0 => let n := if i < spare then i else i + 1
         if h : n < 32 then (if i ≤ 30 then some (.stn ⟨n, h⟩) else none) else none
  | 1 => if h : i < 4 then some (.rbe ⟨i, h⟩) else none
  | 2 => if h : i < 8 then some (.gme ⟨i, h⟩) else none
  | 3 => if h : i < 4 then some (.bse ⟨i, h⟩) else none
  | 4 => if h : i < 64 then some (.dma ⟨i, h⟩) else none
  | 5 => if i = 0 then some .sme else none
  | 6 => if h : i < 2 then some (.cre ⟨i, h⟩) else none
  | 7 => if i = 0 then some .cle else none
  | _ => none

/-- R127: the UNIT code of the operations that a unit executes; UNIT 0 runs on every sequencer. -/
def unitOps : UnitId → List Nat
  | .stn _ => [1, 2]
  | .rbe _ => [4]
  | .gme _ => [3]
  | .bse _ => [5]
  | .dma _ => [9]
  | .sme => [6]
  | .cre _ => [7]
  | .cle => [8]

-- The step descriptor ---------------------------------------------------------------------------------------------------

/-- R128: an operand word. -/
structure Operand where
  slot : Nat
  present : Bool
  write : Bool
  idxSrc : Nat
  offset : Nat
  idxStride : Nat
  rowStride : Nat
  deriving DecidableEq, Repr

/-- R128. -/
def decodeOperand (w : Nat) : Operand :=
  { slot := bits w 63 60, present := bit w 59, write := bit w 58, idxSrc := bits w 57 55, offset := bits w 47 24,
    idxStride := bits w 23 12, rowStride := bits w 11 0 }

/-- R131. -/
def decodeWait (w : Nat) : WaitEntry :=
  { en := bit w 31, parity := bit w 30, object := bits w 29 16, base := bits w 15 14, shift := bits w 13 10,
    c := sext 5 (bits w 9 5), m := bits w 4 0 }

/-- R132. -/
def decodeSignal (w : Nat) : SignalEntry := { en := bit w 15, parity := bit w 14, object := bits w 13 0 }

/-- R127: a step, with the operands of the EXT that follows it, if any. -/
structure StepD where
  unit : Nat
  op : Nat
  task : Nat
  ack : Bool
  opnds : List Operand
  ext : Bool
  dims : List Nat
  sels : List Nat
  predRow : Nat
  predCol : Nat
  budget : Nat
  waits : List WaitEntry
  signals : List SignalEntry
  deriving DecidableEq, Repr

/-- R127: the three operand words of a 64-byte step. -/
def stepOperands (bs : List Byte) : List Operand :=
  [decodeOperand (fld bs 0x04 8), decodeOperand (fld bs 0x0C 8), decodeOperand (fld bs 0x14 8)]

/-- R133: the bytes are an EXT step. -/
def isExt (bs : List Byte) : Bool := fld bs 0 2 = 0x0007

/-- R127, R133: the step in `bs`, `nxt` being the 64 bytes after it. -/
def decodeStep (bs nxt : List Byte) : StepD :=
  let oc := fld bs 0 2
  let ct := fld bs 2 2
  let sh := fld bs 0x1C 8
  let x := isExt nxt
  { unit := bits oc 15 12, op := bits oc 11 0, task := bits ct 15 6, ack := bit ct 5,
    opnds := stepOperands bs ++ (if x then stepOperands nxt else []), ext := x,
    dims := [bits sh 63 48, bits sh 47 32, bits sh 31 16], sels := [bits sh 3 0, bits sh 7 4, bits sh 11 8],
    predRow := fld bs 0x25 1, predCol := fld bs 0x24 1, budget := fld bs 0x26 2,
    waits := tab 4 (fun i => decodeWait (fld bs (0x28 + 4 * i) 4)),
    signals := tab 4 (fun i => decodeSignal (fld bs (0x38 + 2 * i) 2)) }

/-- An operand of the step; one that is not there is not PRESENT. -/
def StepD.opnd (d : StepD) (i : Nat) : Operand := d.opnds.getD i (decodeOperand 0)

-- Indices, dims, thresholds -----------------------------------------------------------------------------------------------

/-- R133: the index of a claim register: old COUNT minus the WORK object's ledger base of the frame. -/
def claimIndex (fr : OpenFrame) (c : ClaimRec) : Nat :=
  (c.old.toNat + 2 ^ 32 - ((alook fr.ledger c.object).getD 0).toNat) % 2 ^ 32

/-- R133: the index of an open loop; of a claim loop whose register another claim has emptied, none is stated. -/
def loopIndex (fr : OpenFrame) (x : Ctx) (l : LoopRec) : Nat :=
  match l.claim with
  | none => l.ctr
  | some r => match alook x.claims r with
    | some c => claimIndex fr c
    | none => (Config.emptyClaim fr.frame x.task x.step r).toNat

/-- R133: the loops around a context's next step: a CLAIM that its CLAIM_END has come back to stands outside the loop it opened. -/
def Ctx.around (x : Ctx) : List LoopRec :=
  match x.loops with
  | [] => []
  | l :: ls => if l.claim.isSome ∧ l.start = x.step then ls else l :: ls

/-- The index of the innermost enclosing loop, 0 outside loops. -/
def innerIndex (fr : OpenFrame) (x : Ctx) : Nat :=
  match x.around with
  | [] => 0
  | l :: _ => loopIndex fr x l

/-- R128: the index an operand's IDX_SRC names; that of an empty claim register is not stated. -/
def operandIndex (fr : OpenFrame) (x : Ctx) (o : Operand) : Nat :=
  match o.idxSrc with
  | 0 => 0
  | 1 => innerIndex fr x
  | 2 => match x.loops with
    | _ :: l :: _ => loopIndex fr x l
    | _ => 0
  | 7 => 0
  | k => match alook x.claims (k - 3) with
    | some c => claimIndex fr c
    | none => (Config.emptyClaim fr.frame x.task x.step (k - 3)).toNat

/-- R128: the slot an operand uses; IDX_SRC 7 takes SLOT + (f mod 2). -/
def operandSlot (x : Ctx) (o : Operand) : Region :=
  x.slots.getD (if o.idxSrc = 7 then o.slot + x.frame % 2 else o.slot)
    { base := 0, size := 0, lstn := 0, sliceRel := false, isLocal := false, remoteFed := false, readOnly := false,
      narrow := false, wide := false, syncEn := false, sync := 0 }

/-- R129: a dim resolved by its SEL code. -/
def resolveDim (fr : OpenFrame) (x : Ctx) (dim sel : Nat) : Nat :=
  if sel = 0 then dim
  else if sel ≤ 4 then x.dims.getD (sel - 1) 0
  else if sel ≤ 8 then x.loaded.getD (sel - 5) 0
  else Nat.min dim (x.dims.getD (sel - 9) 0 - dim * innerIndex fr x)

/-- R130: lane `l` of 64 is enabled by predicate byte `pred`. -/
def predOn (pred : Nat) (dims : List Nat) (l : Nat) : Bool :=
  let n := Nat.min 64 (dims.getD (bits pred 1 0) 0)
  match bits pred 7 6 with
  | 0 => true
  | 1 => decide (l < n)
  | _ => decide (64 ≤ l + n)

/-- R131, R132: the object an entry names in frame `f`. -/
def parObj (parity : Bool) (object f : Nat) : Nat := (if parity then object + f % 2 else object) % 16384

/-- R131: the threshold of a wait entry, modulo 2^32. -/
def waitThreshold (b : Bus) (fr : OpenFrame) (idx : Nat) (w : WaitEntry) : Nat :=
  let o := parObj w.parity w.object fr.frame
  let base : Int := match w.base with
    | 0 => 0
    | 1 => ((alook fr.ledger o).getD 0).toNat
    | _ => b.target o
  toU 32 (base + (w.c + (w.m * idx : Nat)) * 2 ^ w.shift)

/-- R131: an entry is satisfied by WAIT_GE; one that is not enabled always is. -/
def waitOk (b : Bus) (fr : OpenFrame) (idx : Nat) (w : WaitEntry) : Bool :=
  !w.en || b.waitGe (parObj w.parity w.object fr.frame) (waitThreshold b fr idx w)

/-- R132: the signals of a clause performed, each ADD `k`. -/
def doSignals (b : Bus) (f k : Nat) (l : List SignalEntry) : Bus :=
  l.foldl (fun b e => if e.en then b.add (parObj e.parity e.object f) k else b) b

-- Regions -----------------------------------------------------------------------------------------------------------------

/-- R99: a region slot. -/
def decodeRegion (bs : List Byte) : Region :=
  let at' := fld bs 12 2
  let sy := fld bs 14 2
  { base := fld bs 0 8 % 2 ^ 40, size := fld bs 8 4, lstn := bits at' 15 11, sliceRel := bit at' 5, isLocal := bit at' 4,
    remoteFed := bit at' 3, readOnly := bit at' 2, narrow := bit at' 1, wide := bit at' 0, syncEn := bit sy 15,
    sync := bits sy 13 0 }

/-- R99: bytes of a region. -/
def Region.bytes (r : Region) : Nat := 64 * r.size

/-- R100: the resolved base on unit `u` in a frame whose spare is `spare`. -/
def Region.resolve (r : Region) (u : UnitId) (spare : Nat) : Region :=
  if r.isLocal then
    match u with
    | .stn s => { r with base := s.val * 0x400000 + r.base }
    | _ => r
  else if r.sliceRel then { r with base := (if r.lstn < spare then r.lstn else r.lstn + 1) * 0x400000 + r.base }
  else r

/-- R100: the conditions that need no station map (they refuse a book at load, R125 0x04). -/
def Region.badStatic (r : Region) : Bool :=
  (r.wide == r.narrow) || (r.isLocal && r.sliceRel) || (r.remoteFed && !r.syncEn)
    || ((r.isLocal || r.sliceRel) && decide (0x400000 < r.base + r.bytes))

/-- The banks of [a, a + n) in unified memory all have the slot's port class (R94, R100). -/
def banksMatch (b : Bus) (a n : Nat) (narrow : Bool) : Bool :=
  (List.range (n / 0x40000 + 2)).all (fun i =>
    let x := (a / 0x40000 + i) * 0x40000
    let y := Nat.max a x
    if y < a + n ∧ y < 0x0A000000 then b.narrowBank y == narrow else true)

/-- R100, R138: whether a resolved slot refuses its task with REGION_INVALID. -/
def Region.bad (b : Bus) (spare : Nat) (local' : Bool) (r : Region) : Bool :=
  (r.wide == r.narrow) || (r.isLocal && r.sliceRel) || (r.remoteFed && !r.syncEn)
    || (r.wide && decide (r.base % 64 ≠ 0)) || (r.narrow && decide (r.base % 8 ≠ 0))
    || (local' && decide (0x400000 < r.base % 0x400000 + r.bytes))
    || !(b.served r.base r.bytes)
    || (decide (0 < r.bytes) && (match b.place r.base with
        | .um => !(banksMatch b (b.localAddr r.base) r.bytes r.narrow)
            || decide (b.localAddr r.base < (spare + 1) * 0x400000 ∧ spare * 0x400000 < b.localAddr r.base + r.bytes)
        | _ => false))

-- Issue checks -------------------------------------------------------------------------------------------------------------

/-- One operand's accesses by a step: the operand, whether the unit writes it, the port class it uses, and the byte ranges of
its unmasked rows, as offsets from the operand's row 0. -/
structure Acc where
  opnd : Nat
  write : Bool
  narrow : Bool
  ranges : List (Nat × Nat)
  deriving DecidableEq, Repr

/-- What a step runs with: its context, frame, descriptor and resolved dims. -/
structure StepEnv where
  u : UnitId
  x : Ctx
  fr : OpenFrame
  d : StepD
  dims : List Nat
  deriving DecidableEq, Repr

/-- R128: the address of row 0 of operand `i`. -/
def StepEnv.base (e : StepEnv) (i : Nat) : Nat :=
  let o := e.d.opnd i
  (operandSlot e.x o).base + 8 * o.offset + 64 * o.idxStride * operandIndex e.fr e.x o

/-- R128: the address of row `r` of operand `i`. -/
def StepEnv.row (e : StepEnv) (i r : Nat) : Nat := e.base i + 8 * (e.d.opnd i).rowStride * r

/-- A resolved dim. -/
def StepEnv.dim (e : StepEnv) (i : Nat) : Nat := e.dims.getD i 0

/-- R109: whether the step's task owns the fed range that its slot `r` writes (its own REMOTE_FED slot over that range). -/
def StepEnv.owns (e : StepEnv) (a n : Nat) : Bool :=
  e.x.slots.any (fun r => r.remoteFed && decide (r.base ≤ a ∧ a + n ≤ r.base + r.bytes))

/-- The objects named by the step's enabled wait entries (R110). -/
def StepEnv.waited (e : StepEnv) : List Nat :=
  e.d.waits.filterMap (fun w => if w.en then some (parObj w.parity w.object e.fr.frame) else none)

/-- R101: the bound check of one operand. -/
def accOutOfBound (e : StepEnv) (a : Acc) : Bool :=
  let r := operandSlot e.x (e.d.opnd a.opnd)
  let b := e.base a.opnd
  a.ranges.any (fun p => decide (p.2 ≠ 0 ∧ ¬(r.base ≤ b + p.1 ∧ b + p.1 + p.2 ≤ r.base + r.bytes)))

/-- R101, R110: the fault codes of a step's operands (0x03 bound, 0x04 read-only, 0x05 port class, 0x06 sync), in order. -/
def issueFaults (e : StepEnv) (as : List Acc) : List Nat :=
  let slot (a : Acc) : Region := operandSlot e.x (e.d.opnd a.opnd)
  (if as.any (accOutOfBound e) then [0x03] else [])
    ++ (if as.any (fun a => a.write && (slot a).readOnly) then [0x04] else [])
    ++ (if as.any (fun a => (slot a).narrow != a.narrow) then [0x05] else [])
    ++ (if as.any (fun a =>
        let r := slot a
        let named := decide (r.sync ∈ e.waited)
        if a.write then r.syncEn && !r.remoteFed && !named else r.remoteFed && !named) then [0x06] else [])

/-- R101: the counter and the status bit of an issue fault, in the unit's unified-memory block. -/
def countIssueFault (b : Bus) (um code : Nat) : Bus :=
  match code with
  | 0x03 => b.note (um + 0x8210) (um + 0x8004) 29
  | 0x04 => b.inc (um + 0x8214)
  | 0x05 => b.note (um + 0x820C) (um + 0x8004) 30
  | 0x06 => b.note (um + 0x8218) (um + 0x8004) 28
  | _ => b

/-- A read by a step: the bytes, whether poisoned (R102), and whether the read was refused as a bus error (R21). -/
structure Got where
  bytes : List Byte
  poisoned : Bool
  busErr : Bool
  deriving DecidableEq, Repr

/-- R10, R12, R14: the register word at `a` as the unit whose step runs reads it: 0 where no register is; a snapshot it holds, unless it
reads the lower word too (`whole`); its view of a word computed from other state; else the stored bits that read back. -/
def Bus.word (b : Bus) (a : Nat) (whole : Bool) : Nat :=
  match mappedReg b.variant a with
  | none => 0
  | some l => match (if whole then none else alook b.view.snaps a), alook b.view.live a with
    | some w, _ => w.toNat
    | none, some w => w.toNat
    | none, none => b.reg a &&& l.readMask

/-- The word addresses that [l, l + n) falls in, and whether it covers each whole. -/
def wordsOf (l n : Nat) : List (Nat × Bool) :=
  tab ((l + n + 3) / 4 - l / 4) (fun i => (l / 4 * 4 + 4 * i, decide (l ≤ l / 4 * 4 + 4 * i ∧ l / 4 * 4 + 4 * i + 4 ≤ l + n)))

/-- The bytes of [a, a + n) as a unit reads them: memory, the register words of register space (part of a word reads 0), free bytes
from a peer, and free bytes where the read is refused (R21: no data is read). -/
def Bus.fetch (b : Bus) (a n : Nat) : Got :=
  let other := tab n (fun i => Config.remoteByte (a + i) b.free)
  if n = 0 then { bytes := [], poisoned := false, busErr := false }
  else if b.served a n = false then { bytes := other, poisoned := false, busErr := true }
  else
    let l := b.localAddr a
    match b.place a with
    | .regs =>
      { bytes := (((wordsOf l n).flatMap (fun x => leBytes 4 (if x.2 then b.word x.1 (decide (l + 4 ≤ x.1)) else 0))).drop (l % 4)).take n,
        poisoned := false, busErr := false }
    | .remote d _ =>
      { bytes := other, poisoned := false, busErr := !(b.reach d) }
    | _ => { bytes := b.rdN l n, poisoned := b.poisoned l n, busErr := false }

/-- What a read leaves behind it: a refused one counts as a bus error (R21), one of a peer uses up a free value. -/
def Bus.afterFetch (b : Bus) (a n : Nat) : Bus :=
  if n = 0 then b
  else if b.served a n = false then b.busErr
  else
    match b.place a with
    | .remote d _ => if b.reach d then { b with free := b.free + 1 } else b.busErr
    | _ => b

/-- R10 to R14, R85: what reading [a, a + n) leaves to be done: the reads of register words, whole, and parts of words, and the access
to HBM. -/
def Bus.regReads (b : Bus) (q : Requester) (a n : Nat) : List Late :=
  if n = 0 ∨ b.served a n = false then []
  else
    match b.place a with
    | .regs => (wordsOf (b.localAddr a) n).map (fun x => if x.2 then .read q x.1 else .part x.1 none)
    | .hbm => [.hbm (b.localAddr a) n]
    | _ => []

/-- R24, R102: whether a granule of [a, a + n), device addresses, is poisoned. -/
def Bus.tainted (b : Bus) (a n : Nat) : Bool := b.poisoned (b.localAddr a) n

/-- R102: the 64-byte lines of [a, a + n) that hold a poisoned granule: each is a read of its own (R21). -/
def Bus.poisonedLines (b : Bus) (a n : Nat) : Nat :=
  match b.place a with
  | .um | .hbm | .intake => (lines (n / 64 + 2) (b.localAddr a) n).countP (fun x => b.poisoned x.1 x.2)
  | _ => 0

/-- R106: the requester that a unit is. -/
def StepEnv.req (e : StepEnv) : Requester := .unit (unitNo e.u)

/-- R79, R114, R190, R193, R238, R312 and R224: the step's signals wait for every write to be performed: where CTRL.ACK asks for it, and
always for the engines but DMA. -/
def StepEnv.waitsForWrites (e : StepEnv) : Bool :=
  e.d.ack || (match e.u with | .stn _ => false | .dma _ => false | _ => true)

/-- A write by a step through operand `i` at address `a` (R95, R109, R111): LOCAL slots go straight to the slice. -/
def stepWrite (e : StepEnv) (b : Bus) (i a : Nat) (bs : List Byte) (bad : Bool) : Bus × Landed :=
  let r := operandSlot e.x (e.d.opnd i)
  if r.isLocal then b.write e.req a bs .direct e.waitsForWrites bad
  else b.write e.req a bs (.slot r.syncEn (e.owns a bs.length)) e.waitsForWrites bad

/-- The address lies in a peer's range (R24). -/
def Bus.isRemote (b : Bus) (a : Nat) : Bool := match b.place a with | .remote _ _ => true | _ => false

/-- A write of elements of `sz` bytes, each with its poison (R102): a poisoned element poisons its granules where the write lands here,
and the write that carries it to a peer (R411). -/
def stepWriteEls (e : StepEnv) (b : Bus) (i a sz : Nat) (els : List (List Byte × Bool)) : Bus × Landed :=
  let w := stepWrite e b i a (els.map (·.1)).flatten (e.x.taint || (b.isRemote a && els.any (·.2)))
  (if w.2 = .done then els.zipIdx.foldl (fun b x => if x.1.2 then b.markPoison (a + sz * x.2) sz else b) w.1 else w.1, w.2)

/-- The fault code of a landing (R144): UNFED_WRITE or BUS_ERR. -/
def Landed.codes : Landed → List Nat
  | .done => []
  | .busErr => [0x08]
  | .unfed => [0x07]

end Sys2Proof.Machine
end

