-- ==== Sys2Proof/Machine/Faults.lean ====
section
/-! DEFINITION. Faults reported to the frame sequencer: the fault log (R151), the classes of R144, abandonment (R145, R373,
R374) and what the Junesha die is told. -/

namespace Sys2Proof.Machine

/-- The main dies run: they are out of reset (R450). While they are held, their commands have no effect. -/
def State.main (s : State) (f : State → State) : State := if s.plat.mainHeld then s else f s

/-- The Junesha die runs: not halted by a lockstep mismatch (R324) and powered (R443). -/
def State.onSd (s : State) (f : State → State) : State := if s.sd.halted || s.sd.railLost then s else f s

/-- R354: ARM waits for its sweep, or runs it, with no frame open. -/
def State.armSweep (s : State) : Bool := s.sd.arming.isSome && (s.sd.sweeping || decide (s.fseq.openFrames = []))

/-- R354, R451: start-up stands at its sweep, step 9. -/
def State.bootSweep (s : State) : Bool := decide (s.plat.bootStep = 9) && decide (s.sd.state ≠ .off)

/-- R356: an injection sweep is under way: no verdict, batch or safety message leaves the device. -/
def State.inSweep (s : State) : Bool := s.armSweep || s.bootSweep

/-- The Junesha die's record of frame `f`. -/
def Sd.frame (d : Sd) (f : Nat) : CheckFrame := (d.frames.find? (fun c => c.frame = f)).getD { frame := f }

/-- The record of its frame put in place. -/
def Sd.putFrame (d : Sd) (c : CheckFrame) : Sd :=
  { d with frames := if d.frames.any (fun x => x.frame = c.frame)
                     then d.frames.map (fun x => if x.frame = c.frame then c else x)
                     else d.frames ++ [c] }

/-- The open frame `f`. -/
def FrameSeq.frame (q : FrameSeq) (f : Nat) : Option OpenFrame := q.openFrames.find? (fun x => x.frame = f)

/-- The open frame of a parity. -/
def FrameSeq.frameOfParity (q : FrameSeq) (p : Nat) : Option OpenFrame := q.openFrames.find? (fun x => x.frame % 2 = p)

/-- Open frame `f` changed through `g`. -/
def FrameSeq.modFrame (q : FrameSeq) (f : Nat) (g : OpenFrame → OpenFrame) : FrameSeq :=
  { q with openFrames := q.openFrames.map (fun x => if x.frame = f then g x else x) }

/-- The book's entry of task `t`. -/
def FrameSeq.task (q : FrameSeq) (t : Nat) : Option TaskEntry := q.book.bind (fun b => b.tasks[t]?)

/-- Whether task `t` is marked safety-relevant (R122). -/
def FrameSeq.safety (q : FrameSeq) (t : Nat) : Bool := match q.task t with | some e => e.safety | none => false

/-- Station `i`'s data path. -/
def State.stn (s : State) (i : Nat) : Stn := s.stns.getD i {}

/-- Station `i`'s data path replaced. -/
def State.setStn (s : State) (i : Nat) (x : Stn) : State := { s with stns := modAt (fun _ => x) s.stns i }

/-- R182: ACC_HELD and ACC_CTX follow the holder of the accumulators. -/
def Bus.accHeld (b : Bus) (i : Nat) (h : Option (Fin 2)) : Bus :=
  (b.setFlag (stnB i) 9 h.isSome).setFlag (stnB i) 8 (match h with | some p => p.val = 1 | none => false)

/-- R160: the accumulator files of station `i` taken by, or released from, a context. -/
def State.holdAcc (s : State) (i : Nat) (h : Option (Fin 2)) : State :=
  (s.setStn i { s.stn i with holder := h, draining := none }).onBus (·.accHeld i h)

/-- R160: the accumulators released when their holding context stops, completes or is abandoned. -/
def State.releaseAcc (s : State) (u : UnitId) (p : Fin 2) : State :=
  match u with
  | .stn i => if (s.stn i.val).holder = some p then s.holdAcc i.val none else s
  | _ => s

/-- The context of a unit for a frame parity (R142). -/
def State.ctx (s : State) (u : UnitId) (p : Fin 2) : Option Ctx := alook s.fseq.ctxs (u, p)

/-- The context of a unit set. -/
def State.setCtx (s : State) (u : UnitId) (p : Fin 2) (x : Ctx) : State :=
  { s with fseq := { s.fseq with ctxs := aset s.fseq.ctxs (u, p) x } }

/-- A context stops: no further step of it issues, and its accumulators are released. -/
def State.stopCtx (s : State) (u : UnitId) (p : Fin 2) : State :=
  match s.ctx u p with
  | some y => (s.setCtx u p { y with stopped := true }).releaseAcc u p
  | none => s

/-- R151: a record of the fault ring, and the head moved on. -/
def Bus.logFault (b : Bus) (f task code unit step time : Nat) : Bus :=
  let h := b.field (fseqB + 0x34) 3 0
  (b.setRegs (fseqB + 0x100 + 16 * h) [f, task % 65536 + code % 256 * 65536 + unit % 256 * 2 ^ 24, step, time]).setReg
    (fseqB + 0x34) ((h + 1) % 16)

/-- R144, R248: the code of the first fault logged for an open frame, `code` where none is. -/
def FrameSeq.firstFault (q : FrameSeq) (f code : Nat) : Nat :=
  match q.frame f with
  | some x => x.fault.getD code
  | none => code

/-- R144: the frame is reported to the Junesha die as unfit, with the code of its first fault. -/
def State.unfit (s : State) (f code : Nat) : State :=
  let c := s.sd.frame f
  { s with
    sd := s.sd.putFrame { c with unfit := match c.unfit with | some x => some x | none => some (s.fseq.firstFault f code) }
    fseq := s.fseq.modFrame f (fun x => { x with unfit := true }) }

/-- R144, R62, R219: frame `f` goes on with DEGRADED, which its batch header carries. -/
def State.degrade (s : State) (f : Nat) : State :=
  if s.fseq.degraded.contains f then s
  else { s with fseq := { s.fseq with degraded := f :: s.fseq.degraded.filter (fun g => decide (f < g + 64)) } }

/-- R144, R248: the first fault logged for an open frame is kept as its reason. -/
def OpenFrame.note (x : OpenFrame) (code : Nat) : OpenFrame :=
  { x with fault := match x.fault with | some c => some c | none => some code }

/-- R145 (and R374): one open frame abandoned: RESYNC is logged for a frame with no fault of its own. -/
def State.abandonOne (s : State) (x : OpenFrame) : State :=
  let bus := match x.fault with
    | some _ => s.bus
    | none =>
      let w := fun i => (Config.freeWord (s.bus.free + i)).toNat
      { s.bus.logFault x.frame (w 0) 0x23 (w 1) (w 2) s.now with free := s.bus.free + 3 }
  let y := { x.note 0x23 with abandoned := true }
  let bus := ((bus.inc (fseqB + 0x204)).raise (fseqB + 4) 30).emit (.abandonToken (x.frame % 65536))
  let bus := if 1 < bus.topo.size then bus.kydToken (.kydTok (.abandon x.frame)) else bus
  let s := { s with
    bus := bus
    fseq := { s.fseq.modFrame x.frame (fun _ => y) with resync := s.fseq.resync ++ [(x.frame, y.fault.getD 0x23)] } }
  let s := s.unfit x.frame 0x23
  (s.fseq.ctxs.filter (fun c => c.2.frame = x.frame)).foldl (fun s c => s.stopCtx c.1.1 c.1.2) s

/-- R145 step 1: every open frame is abandoned; under rollback, only those not yet committed (R374). -/
def State.abandonAll (s : State) : State :=
  (s.fseq.openFrames.filter (fun x => !x.abandoned && !(s.fseq.rollback && x.committed))).foldl State.abandonOne s

/-- R144: the class of a fault code. -/
inductive FaultClass where
  | refused | stop | continue' | frame
  deriving DecidableEq, Repr

/-- R144. -/
def faultClass (code : Nat) : FaultClass :=
  if code ≤ 0x02 then .refused else if code < 0x10 then .stop else if code < 0x20 then .continue' else .frame

/-- R144: what a fault of each class does to its frame. -/
def State.faultEffect (s : State) (f task code : Nat) (rewrite : Option (UnitId × Fin 2)) : State :=
  match faultClass code with
  | .refused =>
    let s := s.onBus (·.inc (fseqB + 0x208))
    if s.fseq.safety task then s.unfit f code else s.degrade f
  | .stop =>
    let s := s.onBus (·.inc (fseqB + 0x20C))
    match rewrite with
    | some k => { s with fseq := { s.fseq with reissue := k :: s.fseq.reissue } }
    | none => s.abandonAll
  | .continue' => if s.fseq.safety task then s.unfit f code else s
  | .frame => s.abandonAll

/-- R144, R151: a fault of frame `f`, task `task`, code, physical unit and step index, logged and handled by its class.
`rewrite` names the context of a HIST_WRITE task that rollback reissues (R373). -/
def State.report (s : State) (f task code unit step : Nat) (rewrite : Option (UnitId × Fin 2) := none) : State :=
  let s := s.onBus (·.logFault f task code unit step s.now)
  let s := { s with fseq := s.fseq.modFrame f (·.note code) }
  s.faultEffect f task code rewrite

/-- Several faults of one task or step, each reported (R144). -/
def State.reports (s : State) (f task unit step : Nat) (rewrite : Option (UnitId × Fin 2)) (codes : List Nat) : State :=
  codes.foldl (fun s c => s.report f task c unit step rewrite) s

end Sys2Proof.Machine
end

