-- ==== Sys2Proof/Machine/Wipe.lean ====
section
/-! DEFINITION. What a BIST leaves behind (R459, R464 to R466, R480): result records, memories at zero, and the state that stands on
those memories. -/

namespace Sys2Proof.Machine

/-- R458: unit `u` passes (14: a station): both MISRs equal the golden values of its die's one-time-programmable store; a stack has no
logic BIST. -/
def State.bistPassed (s : State) (u : Nat) (r : BistResult) : Bool :=
  let g := s.plat.golden.getD u (0, 0)
  decide (r.mbist = g.2) && (decide (8 ≤ u ∧ u < 14) || decide (r.lbist = g.1))

/-- R459: a unit's result record. -/
def bistRecord (pass : Bool) (r : BistResult) (selftest : Bool) (lbist : Bool := true) : List Byte :=
  leBytes 4 (1 + 2 * b2n pass + 16 * b2n selftest + 2 ^ 16 * (if pass then 0xFFFF else r.failing.toNat))
    ++ leBytes 4 r.duration.toNat ++ leBytes 8 (if lbist then r.lbist.toNat else 0) ++ leBytes 8 r.mbist.toNat

/-- R459: the record of a unit that ran no test to its end, with the status bits `st`: duration and signatures are not stated. -/
def Bus.bareRecord (b : Bus) (st : Nat) : List Byte × Bus :=
  let r := b.freshN 20
  (leBytes 4 (st + 0xFFFF0000) ++ r.1, r.2)

/-- R466: station `n` left as its test leaves it: slice and files at zero, tags clear. -/
def State.testedStation (s : State) (n : Nat) : State :=
  { s.onBus (fun b => ((b.zero (n * 0x400000) 0x400000).setReg (stnB n + 8) 0).setReg (stnB n + 0x0C) 0) with
    stns := modAt (fun x => { x with
      acc := [], accPoison := [], cells := [], plane := [], cellPoison := [], cellKey := none, tabKey := none, tabPoison := [],
      tabData := [] }) s.stns n }

/-- R464: BOOK_VALID cleared, with what a loaded book set (R260, R363). -/
def State.dropBook (s : State) : State :=
  { s with
    bus := (List.range 4).foldl (fun b q => b.setReg (dmaB q + 8) 0) ((s.bus.setFlag (fseqB + 4) 1 false).setReg (fseqB + 0x38) 0)
    fseq := { s.fseq with book := none }
    sd := { s.sd with bookCrc := 0, bookValid := false } }

/-- The register words from `a` to before `e` back at their reset values. -/
def Bus.resetRegs (b : Bus) (a e : Nat) : Bus := { b with regs := b.regs.filter (fun r => decide (¬(a ≤ r.1 ∧ r.1 < e))) }

/-- R83, R464: HC_STATUS.READY cleared. -/
def Bus.notReady (b : Bus) : Bus := (b.setFlag (hcB + 4) 0 false).setFlag (hcB + 4) 1 false

/-- R457, R464: compute-die quadrant `u`. -/
def State.wipeQuadrant (s : State) (u : Nat) : State :=
  let s := (List.range 8).foldl (fun s i => s.testedStation (8 * u + i)) s
  (s.onBus (·.zero (0x08000000 + u * 0x800000) 0x800000)).dropBook

/-- R464: the shared units of the compute die: intake SRAM, sync objects, book store; ledgers restart. -/
def State.wipeShared (s : State) : State :=
  let s := { s with fseq := { s.fseq with ledgerPrev := [], advancePrev := [], fresh := true } }
  (s.onBus (fun b => ((b.zero 0x10000000 0x02000000).resetRegs 0x20800000 0x20840000).notReady)).dropBook

/-- R464: I/O die `d`: MAC and switch buffers, learning table, replay buffers, gate lists. -/
def State.wipeIod (s : State) (d : Nat) : State :=
  { s.onBus (fun b => { b.resetRegs (swB d + 0x8000) (swB d + 0x10000) with sent := b.sent.filter (fun x => decide (x.1 / 2 ≠ d)) }) with
    net := { s.net with
      macs := s.net.macs.filter (fun e => decide (e.1 ≠ d))
      ports := s.net.ports.mapIdx (fun i p => if i / 8 = d then
        { p with queues := [], stamps := [], gate := { p.gate with entries := [] }, pend := p.pend.map (fun g => (g.1, { g.2 with entries := [] })) }
        else p) }
    kydor := { s.kydor with replays := s.kydor.replays.filter (fun r => decide (r.1 / 2 ≠ d)) } }

/-- R22: the stack that holds the 256-byte line of an HBM address: a fixed hash the manual does not state. -/
def Bus.stackAt (b : Bus) (a : Nat) : Nat := Config.hbmStack (a / 256) % b.variant.stacks

/-- R464: the contents of stack `k` zeroed. -/
def Bus.wipeStack (b : Bus) (k : Nat) : Bus :=
  let on (a : Nat) : Bool := decide (0x100000000 ≤ a) && decide (b.stackAt a = k)
  { b with mem := b.mem.filter (fun c => !on c.1), poison := b.poison.filter (fun g => !on (8 * g)) }

/-- R464: what the test of unit `u` leaves. -/
def State.bistWipe (s : State) (u : Nat) : State :=
  if u < 4 then s.wipeQuadrant u
  else if u = 4 then s.wipeShared
  else if u < 7 then s.wipeIod (u - 5)
  else s.onBus (fun b => (b.wipeStack (u - 8)).notReady)

/-- R465: a running unit stopped: ABORTED, its memories as after a test. -/
def State.bistAbort (s : State) (u : Nat) : State :=
  let r := s.bus.bareRecord 4
  { s with bus := r.2, mgmt := { s.mgmt with unitResults := aset s.mgmt.unitResults u r.1 } }.bistWipe u

/-- R465: every running unit stopped. -/
def State.bistStop (s : State) : State :=
  s.mgmt.bistRunning.foldl State.bistAbort { s with mgmt := { s.mgmt with bistRunning := [] } }

end Sys2Proof.Machine
end

