-- ==== Sys2Proof/Machine/Junesha.lean ====
section
/-! DEFINITION. The Junesha die's shared operations: its status words (R353, R376), the CAN FD safety message (R348), the event log
(R394), changes of the device state (R382) with what leaving a state undoes (R205, R315, R319, R393), and entering the safe
state (R342). -/

namespace Sys2Proof.Machine

/-- R381: the code of a device state. -/
def Dev.code : Dev → Nat
  | .off => 0
  | .boot => 1
  | .selftest => 2
  | .config => 3
  | .commission => 4
  | .armed => 5
  | .run => 6
  | .safe => 7

/-- R338: disagreements in the last KM_M verdicts. -/
def State.kmCount (s : State) : Nat := ((s.sd.history.take (s.safeNat 0x701002)).filter id).length

/-- R353: SD_STATE. -/
def State.sdState (s : State) : Nat :=
  s.sd.state.code * 2 ^ 24 + (if s.sd.latched then s.sd.cause else 0) * 2 ^ 16 + b2n s.sd.latched * 4 + b2n s.sd.safeB * 2
    + b2n s.sd.safeA

/-- R353: KM_STATUS. -/
def State.kmStatus (s : State) : Nat :=
  let m := s.safeNat 0x701002
  let h := (s.sd.history.take m).zipIdx.foldl (fun v x => v + b2n x.1 * 2 ^ x.2) 0
  h * 2 ^ 16 + m * 2 ^ 8 + s.kmCount

/-- R352: a counter of the status window advanced: saturating, never cleared by a read. -/
def State.sdCount (s : State) (i n : Nat) : State := s.onBus (·.bump (sdB + 0x100 + 4 * i) n)

/-- R394: a record of the event log; the 32 latest are kept, newest first. -/
def State.logEvent (s : State) (index sub source code : Nat) : State :=
  { s with mgmt := { s.mgmt with
      log := ({ time := s.now, index := index, sub := sub, source := source, code := code } :: s.mgmt.log).take 32 } }

-- Safety messages -------------------------------------------------------------------------------------------------------------

/-- R348: the 24 bytes of a safety message of a type. -/
def State.safetyMsg (s : State) (type : Nat) : List Byte :=
  let d := s.sd
  let body := leBytes 1 type ++ leBytes 1 d.state.code ++ leBytes 1 (b2n d.safeA + 2 * b2n d.safeB)
    ++ leBytes 1 (b2n d.lastValid + 2 * b2n d.lastDisagree + 4 * b2n d.lastUnchecked + 8 * b2n d.latched)
    ++ leBytes 2 d.counter ++ leBytes 2 d.lastReason.toNat ++ leBytes 4 d.lastFrame ++ leBytes 4 d.lastMissed.toNat
    ++ leBytes 1 (if d.latched then d.cause else 0) ++ leBytes 1 s.kmCount ++ zeros 2
  body ++ leBytes 4 (crc32c (leBytes 4 (s.safeNat 0x704002) ++ body))

/-- R348: a safety message sent identically on both controllers; the next one carries the next COUNTER. -/
def State.sendSafety (s : State) (type : Nat) : State :=
  let m := s.safetyMsg type
  let id := s.safeNat 0x704001
  let s := { s with sd := { s.sd with counter := (s.sd.counter + 1) % 65536 } }
  ((s.emit (.can 0 id m)).emit (.can 1 id m)).sdCount 10 1

-- Answers to requests that take time (R383, R396 to R398) --------------------------------------------------------------------------

/-- R396: an SDO response frame on controller `c`. -/
def State.sdoSend (s : State) (c : Nat) (data : List Byte) : State :=
  s.emit (.can c (0x580 + (match alook s.mgmt.od 0x110001 with | some v => leNat v | none => 32)) ((data ++ zeros 8).take 8))

/-- R390, R396: an SDO abort. -/
def State.sdoAbortFrame (s : State) (c idx sub code : Nat) : State :=
  s.sdoSend c (leBytes 1 0x80 ++ leBytes 2 idx ++ leBytes 1 sub ++ leBytes 4 code)

/-- R397: a QMP message that answers the request whose header is `hdr`. -/
def qmpMsg (hdr : List Byte) (service flags : Nat) (data : List Byte) : List Byte :=
  let m := sub hdr 0 3 ++ leBytes 1 service ++ sub hdr 4 5 ++ leBytes 1 flags ++ leBytes 2 data.length ++ sub hdr 12 4 ++ data
  m ++ leBytes 4 (crc32c m)

/-- R398: a message in MBX_RSP: DONE, BUSY cleared, and the interrupt when enabled. -/
def Bus.mbxAnswer (b : Bus) (m : List Byte) : Bus :=
  let b := (chunks 4 261 m).zipIdx.foldl (fun b w => b.setReg (pcieB + 0x2000 + 4 * w.2) (leNat w.1)) b
  let b := (b.raise (pcieB + 0x104) 31).setFlag (pcieB + 0x104) 30 false
  if b.flag (pcieB + 0x100) 1 then b.emit (.msix 0 (b.field (pcieB + 0x100) 15 8)) else b

/-- R396, R398: an answer sent to a QMP peer, to the port its request came from, and kept for a repeated TRANS_ID. -/
def State.qmpSend (s : State) (peer : Nat) (port : BitVec 16) (m : List Byte) : State :=
  let s := { s with mgmt := { s.mgmt with qmpLast := aset s.mgmt.qmpLast peer (leNat (sub m 4 2), m) } }
  if peer < 2 ^ 32 then s.emit (.qmp (BitVec.ofNat 32 peer) port m)
  else if peer = 2 ^ 32 then s.onBus (·.mbxAnswer m)
  else s

/-- R397: the answer to a write: RESPONSE without data, echoing LAST, or ABORT. -/
def qmpWritten (hdr : List Byte) (code : Nat) : List Byte :=
  if code = 0 then qmpMsg hdr 3 (fld hdr 9 1 % 2) [] else qmpMsg hdr 4 0 (leBytes 4 code)

/-- R383: the answer to ARM, sent when it has completed with an abort code, 0 where it is ARMED. -/
def State.armAnswer (s : State) (code : Nat) : State :=
  let t := { s with mgmt := { s.mgmt with armReply := none } }
  match s.mgmt.armReply with
  | none => t
  | some (.sdo c done) => if code = 0 then t.sdoSend c.val done else t.sdoAbortFrame c.val 0x2000 1 code
  | some (.qmp peer port hdr) => t.qmpSend peer port (qmpWritten hdr code)

-- Calibration undone by a change of state -----------------------------------------------------------------------------------------

/-- R304, R306: the addresses of the active and commissioned entries. -/
abbrev activeAt (e : Nat) : Nat := cleB + 0x2000 + 32 * e
abbrev commAt (e : Nat) : Nat := cleB + 0x3000 + 32 * e

/-- R319: the active table set to the commissioned one. -/
def Bus.revertCal (b : Bus) : Bus := (List.range 32).foldl (fun b e => b.setXform (activeAt e) (b.xform (commAt e))) b

/-- R315: GRANTED cleared; an update whose flash record is not yet written is not applied. -/
def State.dropGrant (s : State) : State :=
  { s.onBus (·.setFlag (cleB + 4) 0 false) with calib := { s.calib with writing := false } }

-- Device state ------------------------------------------------------------------------------------------------------------------

/-- R205, R319: what leaving COMMISSION undoes. -/
def State.leaveCommission (s : State) : State :=
  let s := s.onBus (fun b => (List.range 8).foldl (fun b g => b.setFlag (gmeB g) 1 false) b)
  if s.calib.changed then
    { (s.onBus (·.revertCal)).logEvent 0x5000 1 4 0 with calib := { s.calib with changed := false } }
  else s

/-- R421: SYS_CRC. -/
def State.sysCrc (s : State) : Nat :=
  let b := s.bus
  let n (k : Nat) : Nat := s.safeNat k
  crc32c (leBytes 1 (n 0x900001) ++ leBytes 1 (n 0x900002) ++ leBytes 1 (n 0x900003) ++ leBytes 1 (n 0x900004) ++ leBytes 1 (n 0x900005)
    ++ leBytes 4 (b.reg (hcB + 0x28)) ++ ((List.range 64).map (fun i => leBytes 4 (b.reg (hcB + 0x100 + 4 * i)))).flatten
    ++ leBytes 4 (b.reg (hcB + 0x0C)) ++ leBytes 4 (b.field (sieB 0 + 0x0C) 23 0)
    ++ leBytes 4 (b.reg (fseqB + 0x0C)) ++ leBytes 8 (b.reg64 (fseqB + 0x10))
    ++ leBytes 4 (n 0x705001) ++ leBytes 1 (n 0x701001) ++ leBytes 1 (n 0x701002) ++ leBytes 1 (n 0x701004))

/-- R383: the conditions of START. A SLAVE_PORT above 15 acts as 31 (R299). -/
def State.startOk (s : State) : Bool :=
  let st := s.bus.field (timeB 0 + 4) 1 0
  s.bus.flag (fseqB + 4) 0 && (decide (st = 2) || (decide (st = 0) && decide (16 ≤ s.bus.field (timeB 0 + 0x18) 4 0)))

/-- R408: bit k is 1 while Kydor port k is UP. -/
def State.linkBits (s : State) : Nat :=
  lsum ((List.range 4).map (fun k => if (k < 2 ∨ s.bus.variant.isX2 = true) ∧ s.bus.field (kydB k + 4) 1 0 = 2 then 2 ^ k else 0))

/-- R422: what a device of a system reports on VC 0 beside its state. -/
def State.sendReport (s : State) (n : Fin 32) : State :=
  s.token (.kydTok (.report n s.startOk (BitVec.ofNat 4 s.linkBits) (BitVec.ofNat 32 s.sysCrc)))

/-- R382: the device state changes to `d`: R393's pending set is discarded on leaving CONFIG, a grant is cleared on leaving its
state (R315), and SAFE_OK is energised in RUN alone (R346). Entering RUN clears the K-of-M history (R338) and begins a stretch (R368);
entering CONFIG ends the schedule of R364; a field BIST stops (R465). A change is reported to a manager (R408, R422). -/
def State.setDev (s : State) (d : Dev) : State :=
  if s.sd.state = d then s
  else
    let s := s.bistStop
    let s := if s.sd.state = .config then { s with mgmt := { s.mgmt with pending := [] } } else s
    let s := if s.sd.state = .commission then s.leaveCommission else s
    let s := if s.bus.flag (cleB + 4) 0 && (decide (d = .safe) || decide (s.calib.grantState ≠ d.code)) then s.dropGrant else s
    let s := { s with sd := { s.sd with
      state := d, safeA := s.sd.safeA && decide (d = .run), safeB := s.sd.safeB && decide (d = .run),
      pulseA := if d = .run then s.sd.pulseA else none, pulseB := if d = .run then s.sd.pulseB else none,
      schedule := if d = .config then none else s.sd.schedule,
      runFirst := if d = .config then none else s.sd.runFirst,
      history := if d = .run then [] else s.sd.history, invalidRun := if d = .run then 0 else s.sd.invalidRun,
      stretch := if d = .run then s.sd.stretch + 1 else s.sd.stretch } }
    match (if h : 1 < s.bus.topo.size ∧ s.bus.topo.own < 32 then some (⟨s.bus.topo.own, h.2⟩ : Fin 32) else none) with
    | some n => if n.val = 0 then s else (s.token (.kydTok (.state n (BitVec.ofNat 8 d.code)))).sendReport n
    | none => s

/-- R364, R372: ARMED entered: the schedule latched from the frame sequencer, and ROLLBACK_EN passed to it. -/
def State.enterArmed (s : State) : State :=
  let s := s.setDev .armed
  { s with
    sd := { s.sd with schedule := some (s.bus.reg64 (fseqB + 0x10), s.bus.tf), runFirst := none }
    fseq := { s.fseq with rollback := decide (s.safeNat 0x707001 ≠ 0) } }

/-- R364: RUN entered: verdicts are owed from the first frame whose deadline has not passed. -/
def State.enterRun (s : State) : State :=
  let sch := s.sd.schedule.getD (s.bus.reg64 (fseqB + 0x10), s.bus.tf)
  let s := s.setDev .run
  { s with sd := { s.sd with
      runFirst := some (if sch.2 = 0 then 0 else ceilDiv (s.now - (sch.1 + s.deadlineNs)) sch.2), nextVerdict := none } }

/-- R422: a system's START or STOP takes effect at the window of its frame. -/
def State.systemBoundary (s : State) (f : Nat) : State :=
  match s.kydor.runAt with
  | none => s
  | some (g, run) =>
    if f < g then s
    else
      let s := { s with kydor := { s.kydor with runAt := none } }
      if run then (if s.sd.state = .armed then s.enterRun else s) else (if s.sd.state = .run then s.enterArmed else s)

-- The safe state -----------------------------------------------------------------------------------------------------------------

/-- R303: the registers of the verdict held by die `d`'s guard for frame `f`. -/
abbrev guardAt (d f : Nat) : Nat := egrdB d + 0x10 + 16 * (f % 4)

/-- The I/O dies present. -/
def ioDies (v : Variant) : List Nat := if v.isX2 then [0, 1] else [0]

/-- R342: every verdict held by the guards loses its VALID. -/
def Bus.revoke (b : Bus) : Bus :=
  (ioDies b.variant).foldl (fun b d => (List.range 4).foldl (fun b v => b.setFlag (egrdB d + 0x1C + 16 * v) 0 false) b) b

/-- R429: a device that enters the safe state sends its latest frame's local verdict with LATCHED. -/
def State.sendLatched (s : State) : State :=
  if s.bus.topo.size ≤ 1 ∨ s.bus.topo.own = 0 then s
  else s.token (.kydLocal s.sd.lastFrame
    { valid := false, reason := 0x0203, cells := s.sd.lastCells, missed := s.sd.lastMissed, unsupported := 0, latched := true })

/-- R385: a command being executed is refused by a fault. -/
def State.endCommand (s : State) : State :=
  match s.sd.arming with
  | none => { s with sd := { s.sd with sweeping := false } }
  | some src =>
    let code := match src with | .can c => c.val | .qmp => 2 | .mailbox => 3 | .internal => 4
    let s := { s with
      sd := { s.sd with arming := none, sweeping := false }
      mgmt := { s.mgmt with
        cmdRefused := Nat.min (s.mgmt.cmdRefused + 1) 0xFFFFFFFF, sdoAborts := Nat.min (s.mgmt.sdoAborts + 1) 0xFFFFFFFF } }
    (s.logEvent 0x2000 1 code 0x08000020).armAnswer 0x08000020

/-- R342, R344: the safe state entered with a cause, MECH_CAUSE and the frame recorded in flash. A device already latched keeps its
CAUSE, and the later cause is logged; from SELFTEST it still goes to SAFE. A cause during start-up's sweep fails the sweep (R356). -/
def State.enterSafe (s : State) (cause mech frame : Nat) : State :=
  let s := { s with sd := { s.sd with
    causeLog := s.sd.causeLog ++ [(cause, if cause = 6 then BitVec.ofNat 32 mech else 0, frame)], sweepTrip := s.sd.sweepTrip || s.bootSweep } }
  if s.sd.latched then (if s.sd.state = .safe then s else s.endCommand.setDev .safe)
  else
    let s := s.endCommand.setDev .safe
    let s := { s with sd := { s.sd with
      latched := true, cause := cause, flashCause := cause, flashFrame := frame,
      mech := if cause = 6 then BitVec.ofNat 32 mech else s.sd.mech, safeA := false, safeB := false, pulseA := none,
      pulseB := none } }
    ((s.sendSafety 2).onBus (·.revoke) |>.sdCount 8 1).sendLatched

/-- R407, R452, R456: start-up has stopped in BOOT. BOOT_CODE 0x02 stops nothing: the Junesha die's first slot runs. -/
def Plat.bootStopped (p : Plat) : Bool := decide (p.bootCode ≠ 0 ∧ p.bootCode ≠ 2)

/-- R386: the states in which a fault enters the safe state: `boot` says that SELFTEST counts too. -/
def State.canTrip (s : State) (selftest : Bool) : Bool :=
  match s.sd.state with
  | .off => false
  | .boot => false
  | .selftest => selftest
  | _ => true

/-- R439: two windows in which a clock's count departs by `ppm` trip its monitor. -/
def clockTrips (ppm : Int) : Bool := decide (20000 < ppm.natAbs)

/-- R443: consecutive samples of a rail beyond a trip point that are a voltage fault. -/
def voltTrips (samples : Nat) : Bool := decide (4 ≤ samples)

/-- R347: a sensed level that differs for so many ns is a discrepancy. -/
def readbackTrips (ns : Nat) : Bool := decide (20000 < ns)

/-- R341, R386: a cause taken at its detection, where its state allows it. -/
def State.trip (s : State) (cause : Nat) (selftest : Bool) (mech : Nat := 0) : State :=
  s.onSd fun s => if s.canTrip selftest then s.enterSafe cause mech s.sd.lastFrame else s

end Sys2Proof.Machine
end

