-- ==== Sys2Proof/Machine/Seq.lean ====
section
/-! DEFINITION. The step sequencers: fetching a step (R142), when it may issue (R107, R131, R142), the checks at issue (R101), what
happens when it stops, its signals (R114, R132), and the control operations of R133. A step issues and completes in one
command. -/

namespace Sys2Proof.Machine

/-- R127, R142: the address of step `i` of a context's list. -/
def stepAddr (b : Bus) (x : Ctx) (i : Nat) : Nat := b.reg64 (fseqB + 0x18) + x.entry.stepOff + 64 * i

/-- R142: step `i` of the list, fetched with the one after it; none where the fetch is refused under R21. -/
def fetchStep (b : Bus) (x : Ctx) (i : Nat) : Option StepD :=
  let g := b.fetch (stepAddr b x i) 64
  let n := if i + 1 < x.entry.stepCount then (b.fetch (stepAddr b x (i + 1)) 64).bytes else zeros 64
  if g.busErr then none else some (decodeStep g.bytes n)

/-- A context that may still issue: its frame is open and not abandoned, the task neither stopped nor at its end, and its current
step's signals not held back by a peer's answer (R79, R114). -/
def State.live (s : State) (u : UnitId) (p : Fin 2) : Option (Ctx × OpenFrame) :=
  match s.ctx u p with
  | none => none
  | some x =>
    match s.fseq.frame x.frame with
    | none => none
    | some fr => if x.stopped || fr.abandoned || x.due.isSome || decide (x.entry.stepCount ≤ x.step) then none else some (x, fr)

/-- R131: every enabled wait entry of the step is satisfied. -/
def waitsOk (b : Bus) (x : Ctx) (fr : OpenFrame) (d : StepD) : Bool :=
  d.waits.all (waitOk b fr (innerIndex fr x))

/-- R160: the step is an array step, and the other context holds the accumulator files of its station. -/
def State.accBusy (s : State) (u : UnitId) (p : Fin 2) (d : StepD) : Bool :=
  match u with
  | .stn i => decide (d.unit = 1) && (match (s.stn i.val).holder with | some q => decide (q ≠ p) | none => false)
  | _ => false

/-- R142, R160: the context's next step has its waits satisfied and may take the accumulators it needs. -/
def State.nextReady (s : State) (u : UnitId) (p : Fin 2) : Bool :=
  match s.live u p with
  | none => false
  | some (x, fr) =>
    match fetchStep s.bus x x.step with
    | none => true
    | some d => waitsOk s.bus x fr d && !s.accBusy u p d

/-- R142: the context of the older frame goes first when its next step is ready. -/
def State.mayIssue (s : State) (u : UnitId) (p : Fin 2) : Bool :=
  match s.ctx u p, s.ctx u (p + 1) with
  | some x, some y => decide (x.frame ≤ y.frame) || !(s.nextReady u (p + 1))
  | _, _ => true

/-- R359: the START token, when the task's first step issues. -/
def State.startTok (s : State) (u : UnitId) (p : Fin 2) (x : Ctx) : State :=
  if x.started then s
  else
    let s := s.setCtx u p { x with started := true }
    if x.entry.monitorEn then s.emit (.startToken x.entry.monitor (x.frame % 65536)) else s

/-- R373: a stop-class fault of this context is recovered by a reissue: rollback, a HIST_WRITE task not yet reissued, and a
committed frame. -/
def State.recovers (s : State) (u : UnitId) (p : Fin 2) (x : Ctx) (fr : OpenFrame) : Option (UnitId × Fin 2) :=
  if s.fseq.rollback && x.entry.histWrite && fr.committed && !x.reissued then some (u, p) else none

/-- R144: the task stops (no further issue) and the codes are reported. -/
def State.stopTask (s : State) (u : UnitId) (p : Fin 2) (x : Ctx) (fr : OpenFrame) (codes : List Nat) : State :=
  (s.stopCtx u p).reports x.frame x.task (unitNo u) x.step (s.recovers u p x fr) codes

/-- R128, R133: the claim register behind an operand's index, named by it or filled by the claim loop it takes the index of. -/
def operandClaim (x : Ctx) (o : Operand) : Option Nat :=
  if o.present = false then none
  else if 3 ≤ o.idxSrc ∧ o.idxSrc ≤ 6 then some (o.idxSrc - 3)
  else if o.idxSrc = 1 then x.loops.head?.bind (·.claim)
  else if o.idxSrc = 2 then (x.loops[1]?).bind (·.claim)
  else none

/-- R107: the claim registers that the step takes operand offsets from: by its operands' indices, and, for the engines whose operations
start at row FIRST = DIM0 × i, by the innermost loop. -/
def stepClaims (x : Ctx) (d : StepD) : List Nat :=
  d.opnds.filterMap (operandClaim x)
    ++ (if d.unit = 3 ∨ d.unit = 4 then (x.loops.head?.bind (·.claim)).toList else [])

/-- R107: the first claim register of the step whose object's EPOCH has moved on. -/
def staleClaim (b : Bus) (x : Ctx) (d : StepD) : Option (Nat × ClaimRec) :=
  (stepClaims x d).findSome? (fun r => match alook x.claims r with
    | some c => if b.epoch c.object ≠ c.epoch then some (r, c) else none
    | none => none)

/-- R107: the open loops from the claim loop outwards that step `i` opened. -/
def loopsFrom (i : Nat) : List LoopRec → List LoopRec
  | [] => []
  | l :: ls => if l.start = i then l :: ls else loopsFrom i ls

/-- R107: a step refused for a stale claim: the register is emptied, the refusal noted, the sequencer back at the CLAIM. -/
def State.refuseClaim (s : State) (u : UnitId) (p : Fin 2) (x : Ctx) (r : Nat) (c : ClaimRec) : State :=
  (s.onBus (·.refuse c.object)).setCtx u p
    { x with claims := adel x.claims r, step := c.step, loops := loopsFrom c.step x.loops }

/-- R114: the step is performed: its signals, and the move past it and its EXT, are due. -/
def State.stepDone (s : State) (u : UnitId) (p : Fin 2) (x : Ctx) (d : StepD) : State :=
  match s.ctx u p with
  | none => s
  | some y => s.setCtx u p { y with due := some (d.signals, x.step + (if d.ext then 2 else 1)) }

/-- R114, R143: the signals due given, each ADD 1, and the list moved on. -/
def State.giveDue (s : State) (u : UnitId) (p : Fin 2) : State :=
  match s.ctx u p with
  | none => s
  | some y =>
    match y.due with
    | none => s
    | some (sigs, n) => (s.onBus (fun b => doSignals b y.frame 1 sigs)).setCtx u p { y with step := n, due := none, told := [] }

/-- R102: `k` reads of poisoned data, counted in POISON_READ of the unit's block. -/
def State.poisonReads (s : State) (u : UnitId) (k : Nat) : State := s.onBus (·.bump (unitUm u + 0x8228) k)

/-- What a unit's data path did: the state after it, the reads it made where they are not just its operands' ranges, the fault codes met,
and whether the step still signals. -/
structure Done where
  s : State
  reads : Option (List (Nat × Nat)) := none
  /-- Fault codes, in the order met. -/
  codes : List Nat := []
  signals : Bool := true

/-- What a unit brings to a step: which steps this command runs, what the unit itself needs before it issues, the plan checks
made at issue (fault codes), the operands' accesses, the data path, and what a step whose DIM0 is 0 still does. -/
structure UnitOp where
  sel : StepD → Bool
  ready : StepEnv → State → Bool := fun _ _ => true
  pre : StepEnv → State → List Nat := fun _ _ => []
  accs : StepEnv → State → List Acc
  eff : StepEnv → State → Done
  zero : StepEnv → State → State := fun _ s => s
  /-- The operation gives a step whose DIM0 is 0 the same effect as any other. -/
  runsAtZero : Bool := false

/-- The step environment of the context's next step. -/
def stepEnv (u : UnitId) (x : Ctx) (fr : OpenFrame) (d : StepD) : StepEnv :=
  { u := u, x := x, fr := fr, d := d, dims := tab 3 (fun i => resolveDim fr x (d.dims.getD i 0) (d.sels.getD i 0)) }

/-- A new step: the free values that a peer's answers take differ from an earlier step's. -/
def Bus.nextFree (b : Bus) : Bus := { b with free := b.free + 1 }

/-- R120: a read that a step had refused counts as a bus error, where its data path has not counted it. -/
def Bus.countRefused (b was : Bus) (codes : List Nat) : Bus :=
  if codes.contains 0x08 && decide (b.reg (fabB + 0x110) = was.reg (fabB + 0x110)) then b.busErr else b

/-- The addresses that the step's operands are read at: each range's first byte and length. -/
def StepEnv.readRanges (e : StepEnv) (as : List Acc) : List (Nat × Nat) :=
  (as.filter (fun a => !a.write)).flatMap (fun a => a.ranges.map (fun r => (e.base a.opnd + r.1, r.2)))

/-- The reads of register words and of poisoned lines that a step makes, from the state it issues in: the former are performed with the
command's other register accesses, the latter counted in POISON_READ (R102), by DMA in its engine's own block. -/
def State.takeReads (s : State) (e : StepEnv) (was : Bus) (rs : List (Nat × Nat)) : State :=
  let s := s.onBus (fun b => { b with late := b.late ++ rs.flatMap (fun r => was.regReads e.req r.1 r.2) })
  match e.u with
  | .dma _ => s
  | u => s.poisonReads u (lsum (rs.map (fun r => was.poisonedLines r.1 r.2)))

/-- R101, R102: what the data path leaves: its state with the refused accesses counted and the operands' reads taken. -/
def UnitOp.run (o : UnitOp) (e : StepEnv) (s : State) : Done :=
  let r := o.eff e (s.onBus (·.nextFree))
  { r with s := (r.s.onBus (·.countRefused s.bus r.codes)).takeReads e s.bus (r.reads.getD (e.readRanges (o.accs e s))) }

/-- R101, R102, R114: the data path runs, its faults are reported, and the step's signals are due unless it stopped its task. -/
def runEffect (o : UnitOp) (e : StepEnv) (p : Fin 2) (s : State) : State :=
  let r := o.run e s
  if r.codes.any (fun c => faultClass c = .stop) then r.s.stopTask e.u p e.x e.fr r.codes
  else (if r.signals then r.s.stepDone e.u p e.x e.d else r.s).reports e.x.frame e.x.task (unitNo e.u) e.x.step none r.codes

/-- R101, R129, R158: the step issues, or stops its task on a failed check. A step whose resolved DIM0 is 0 touches no memory. -/
def issueStep (o : UnitOp) (e : StepEnv) (p : Fin 2) (s : State) : State :=
  let pre := o.pre e s
  if pre ≠ [] then s.stopTask e.u p e.x e.fr pre
  else if e.dim 0 = 0 ∧ o.runsAtZero = false then (o.zero e s).stepDone e.u p e.x e.d
  else
    let fs := issueFaults e (o.accs e s)
    if fs ≠ [] then
      (s.onBus (fun b => fs.foldl (fun b c => countIssueFault b (unitUm e.u) c) b)).stopTask e.u p e.x e.fr fs
    else runEffect o e p s

/-- R142, R107: the unit's next step, if this command runs it and it is ready. -/
def runStep (u : UnitId) (p : Fin 2) (o : UnitOp) (s : State) : State :=
  s.main fun s =>
  match s.live u p with
  | none => s
  | some (x, fr) =>
    match fetchStep s.bus x x.step with
    | none => (s.onBus (·.busErr)).stopTask u p x fr [0x08]
    | some d =>
      let e := stepEnv u x fr d
      if o.sel d = false ∨ waitsOk s.bus x fr d = false ∨ s.mayIssue u p = false ∨ o.ready e s = false then s
      else
        match staleClaim s.bus x d with
        | some (r, c) => s.refuseClaim u p x r c
        | none => issueStep o e p (s.startTok u p x)

-- Bank conflicts (R96) -----------------------------------------------------------------------------------------------------

/-- R96: a task of station `i` runs in STRICT. -/
def State.strictAt (s : State) (i : Nat) : Bool :=
  s.fseq.ctxs.any (fun c => match c.1.1 with | .stn n => decide (n.val = i) && c.2.entry.strict | _ => false)

/-- R96, R160, R163, R165, R166: the micro-architectural counts of a step of station `i`: its stalls where its task runs in ARBITRATE,
its conflicts where a task of the station runs in STRICT. -/
def countDyn (s : State) (b : Bus) (i : Nat) (strict : Bool) (dyn : StepDyn) : Bus :=
  let b := if s.strictAt i && decide (dyn.conflicts ≠ 0) then
      (b.bump (stnB i + 0x8204) dyn.conflicts).raise (stnB i + 0x8004) 31
    else b
  let b := if strict then b else b.bump (stnB i + 0x8200) dyn.arbStall
  (((b.bump (stnB i + 0x118) dyn.stageWait).bump (stnB i + 0x11C) dyn.accWait).bump (stnB i + 0x120) dyn.rowDry).bump
    (stnB i + 0x124) dyn.drainFreeze

/-- R96: the step of a STRICT task had an access in a conflict. -/
def conflictHit (e : StepEnv) (dyn : StepDyn) : Bool := e.x.entry.strict && (decide (dyn.conflicts ≠ 0) || dyn.joined)

/-- R96: the step's environment as it writes its result row number `r`: poisoned from the conflicting cycle on. -/
def StepEnv.atRow (e : StepEnv) (dyn : StepDyn) (r : Nat) : StepEnv :=
  { e with x := { e.x with taint := e.x.taint || (conflictHit e dyn && decide (dyn.clean ≤ r)) } }

/-- The context's taint kept for the task's later steps (R96). -/
def State.taint (s : State) (u : UnitId) (p : Fin 2) (v : Bool) : State :=
  match s.ctx u p with
  | some y => if v then s.setCtx u p { y with taint := true } else s
  | none => s

-- Control operations (R133) ------------------------------------------------------------------------------------------------

/-- The enabled lanes [lo, hi) of a predicate byte among the first `n` lanes (R130). -/
def predRun (pred : Nat) (dims : List Nat) (n : Nat) : Nat × Nat :=
  let k := Nat.min 64 (dims.getD (bits pred 1 0) 0)
  match bits pred 7 6 with
  | 0 => (0, n)
  | 1 => (0, Nat.min k n)
  | _ => (Nat.min (64 - k) n, n)

/-- R204: the whole write range of a step written with poisoned granules, their contents not promised; a refused part stays as it is. -/
def poisonRanges (e : StepEnv) (b : Bus) (as : List Acc) : Bus :=
  as.foldl (fun b a => if a.write then a.ranges.foldl (fun b r =>
      let (bs, b) := b.freshN r.2
      (stepWrite e b a.opnd (e.base a.opnd + r.1) bs true).1) b
    else b) b

/-- R206: the first format violation since FMT_ERR was cleared, recorded in the block's FMT_LOG and counted; the status bit 31
of the register after the control register is FMT_ERR. -/
def logFmt (b : Bus) (blk cnt : Nat) (e : StepEnv) (code row : Nat) : Bus :=
  let b := if b.flag (blk + 4) 31 then b
    else b.setRegs (blk + 0x10) [code * 2 ^ 24, e.x.frame, e.x.task % 1024 * 65536 + e.x.step % 65536, row]
  (b.inc cnt).raise (blk + 4) 31

/-- A control step: the same issue conditions, then `eff` on the context, descriptor and frame. -/
def runControl (u : UnitId) (p : Fin 2) (op : Nat) (eff : StepEnv → State → State) (s : State) : State :=
  s.main fun s =>
  match s.live u p with
  | none => s
  | some (x, fr) =>
    match fetchStep s.bus x x.step with
    | none => (s.onBus (·.busErr)).stopTask u p x fr [0x08]
    | some d =>
      if d.unit ≠ 0 ∨ d.op ≠ op ∨ waitsOk s.bus x fr d = false ∨ s.mayIssue u p = false then s
      else
        match staleClaim s.bus x d with
        | some (r, c) => s.refuseClaim u p x r c
        | none =>
          eff (stepEnv u { x with started := true } fr d) (s.startTok u p x)

/-- R133: the index just after the ENDLOOP or CLAIM_END that matches the loop opened before step `i` (depth `k`), looking at most
`fuel` steps on; the list's end where there is none. -/
def afterMatch (b : Bus) (x : Ctx) : Nat → Nat → Nat → Nat
  | 0, _, i => i
  | fuel + 1, k, i =>
    if x.entry.stepCount ≤ i then i
    else
      let oc := leNat ((b.fetch (stepAddr b x i) 64).bytes.take 2)
      if oc = 0x0001 ∨ oc = 0x0003 then afterMatch b x fuel (k + 1) (i + 1)
      else if oc = 0x0002 ∨ oc = 0x0004 then (if k = 0 then i + 1 else afterMatch b x fuel (k - 1) (i + 1))
      else afterMatch b x fuel k (i + 1)

/-- The signals performed and the context put back with `y`. -/
def StepEnv.control (e : StepEnv) (p : Fin 2) (k : Nat) (sigs : List SignalEntry) (y : Ctx) (s : State) : State :=
  (s.onBus (fun b => doSignals b e.x.frame k sigs)).setCtx e.u p y

/-- The step after this one and its EXT. -/
def StepEnv.after (e : StepEnv) : Nat := e.x.step + (if e.d.ext then 2 else 1)

/-- R133 NOP: waits, then signals. -/
def execNop (u : UnitId) (p : Fin 2) (s : State) : Host.Outcome State Fault Refusal :=
  .next (runControl u p 0 (fun e s => e.control p 1 e.d.signals { e.x with step := e.after } s) s)

/-- R133 LOOP: opens a loop of V iterations, or ceil(V / DIM1); none skips past the matching ENDLOOP. -/
def execLoop (u : UnitId) (p : Fin 2) (s : State) : Host.Outcome State Fault Refusal :=
  .next (runControl u p 1 (fun e s =>
    let n := if e.dim 1 = 0 then e.dim 0 else ceilDiv (e.dim 0) (e.dim 1)
    let y := if n = 0 then { e.x with step := afterMatch s.bus e.x e.x.entry.stepCount 0 e.after }
      else { e.x with step := e.after, loops := { start := e.after, count := n, ctr := 0 } :: e.x.loops }
    e.control p 1 e.d.signals y s) s)

/-- R133 ENDLOOP: increments the counter and returns to the step after LOOP while iterations remain. -/
def execEndloop (u : UnitId) (p : Fin 2) (s : State) : Host.Outcome State Fault Refusal :=
  .next (runControl u p 2 (fun e s =>
    let y := match e.x.loops with
      | [] => { e.x with step := e.after }
      | l :: ls =>
        if l.ctr + 1 < l.count then { e.x with step := l.start, loops := { l with ctr := l.ctr + 1 } :: ls }
        else { e.x with step := e.after, loops := ls }
    e.control p 1 e.d.signals y s) s)

/-- R107, R133 CLAIM: FETCH_ADD 1 on the WORK object of SIGNAL[0]; EXHAUSTED skips past the matching CLAIM_END. -/
def execClaim (u : UnitId) (p : Fin 2) (s : State) : Host.Outcome State Fault Refusal :=
  .next (runControl u p 3 (fun e s =>
    let sg := e.d.signals.headD (decodeSignal 0)
    let o := parObj sg.parity sg.object e.x.frame
    let r := e.dim 1 % 4
    let again := match e.x.loops with | l :: _ => decide (l.start = e.x.step ∧ l.claim.isSome) | [] => false
    let outer := if again then e.x.loops.drop 1 else e.x.loops
    let got := s.bus.fetchAdd o 1
    let y := match got.2 with
      | none => { e.x with step := afterMatch s.bus e.x e.x.entry.stepCount 0 e.after, loops := outer,
                           claims := adel e.x.claims r }
      | some (old, ep) =>
        { e.x with step := e.after, loops := { start := e.x.step, count := 0, ctr := 0, claim := some r } :: outer,
                   claims := aset e.x.claims r { object := o, old := BitVec.ofNat 32 old, epoch := ep, step := e.x.step } }
    e.control p 1 (e.d.signals.drop 1) y { s with bus := got.1 }) s)

/-- R133 CLAIM_END: returns to its CLAIM. -/
def execClaimEnd (u : UnitId) (p : Fin 2) (s : State) : Host.Outcome State Fault Refusal :=
  .next (runControl u p 4 (fun e s =>
    let y := match e.x.loops with
      | l :: _ => { e.x with step := l.start }
      | [] => { e.x with step := e.after }
    e.control p 1 e.d.signals y s) s)

/-- R96: what a conflict at a station's narrow port leaves: the counts, and BANK_CONFLICT for a STRICT task. -/
def State.narrowConflict (s : State) (e : StepEnv) (p : Fin 2) (dyn : StepDyn) : State :=
  match e.u with
  | .stn i =>
    let s := (s.onBus (fun b => countDyn s b i.val e.x.entry.strict { arbStall := dyn.arbStall, conflicts := dyn.conflicts })).taint e.u p
      (conflictHit e dyn)
    if conflictHit e dyn then s.report e.x.frame e.x.task 0x10 (unitNo e.u) e.x.step else s
  | _ => s

/-- R133 LOAD_DIM: the low DIM2 bits of the word at OPND0, through the narrow port, into loaded dim DIM1[1:0]; a value above
LOADED_MAX stops the task with DIM_EXCEEDS_PLAN. -/
def runLoadDim (u : UnitId) (p : Fin 2) (dyn : StepDyn) (s : State) : Host.Outcome State Fault Refusal :=
  .next (runControl u p 5 (fun e s =>
    let acc : Acc := { opnd := 0, write := false, narrow := true, ranges := [(0, 4)] }
    let fs := issueFaults e [acc]
    if fs ≠ [] then
      (s.onBus (fun b => fs.foldl (fun b c => countIssueFault b (unitUm u) c) b)).stopTask u p e.x e.fr fs
    else
      let s := (s.onBus (·.nextFree)).narrowConflict e p dyn
      let g := s.bus.fetch (e.base 0) 4
      let s := s.takeReads e s.bus (e.readRanges [acc])
      let v := leNat g.bytes % 2 ^ e.dim 2
      let k := e.dim 1 % 4
      if g.busErr then (s.onBus (·.busErr)).stopTask u p e.x e.fr [0x08]
      else
        let s := if g.poisoned then s.report e.x.frame e.x.task 0x11 (unitNo u) e.x.step else s
        if e.x.entry.loadedMax.getD k 0 < v then s.stopTask u p e.x e.fr [0x0B]
        else e.control p 1 e.d.signals
          { e.x with step := e.after, loaded := modAt (fun _ => v) e.x.loaded k, taint := e.x.taint || g.poisoned || conflictHit e dyn } s) s)

/-- R133 SIGNAL_N: ADD V on each signal object, V = DIM0 resolved. -/
def execSignalN (u : UnitId) (p : Fin 2) (s : State) : Host.Outcome State Fault Refusal :=
  .next (runControl u p 6 (fun e s => e.control p (e.dim 0) e.d.signals { e.x with step := e.after } s) s)

end Sys2Proof.Machine
end

