-- ==== Sys2Proof/Machine/Arrays.lean ====
section
/-! DEFINITION. The stations' arrays: the matrix steps MM and MMB (R156 to R174), the N2M4 weight mode (R201), the accumulators
(R159, R160) and the activity ramp (R164). -/

namespace Sys2Proof.Machine

/-- R164, R182: RAMP of station `i`, with `rows` cell rows enabled. -/
def State.setRamp (s : State) (i : Nat) (r : Ramp) (rows : Nat) : State :=
  let code := match r with | .off => 0 | .up => 1 | .full => 2 | .down => 3
  (s.setStn i { s.stn i with ramp := r }).onBus (fun b => (b.setField (stnB i) 7 6 code).setField (stnB i) 5 1 rows)

-- Step fields (R156) --------------------------------------------------------------------------------------------------

def mmOp (d : StepD) : Nat := bits d.op 11 9
def mmKeep (d : StepD) : Bool := bit d.op 8
def mmClr (d : StepD) : Bool := bit d.op 7
def mmDrain (d : StepD) : Bool := bit d.op 6
def mmFmt (d : StepD) : Nat := bits d.op 5 3
def mmOut (d : StepD) : Nat := bits d.op 2 0

/-- R201: the position plane is present: N2M4 mode. -/
def mmPlane (d : StepD) : Bool := d.ext && (d.opnd 4).present

/-- R156, R170: the float formats of weights and activations; none for the integer formats. -/
def mmFloat (fmt : Nat) : Option (Fmt × Fmt) :=
  match fmt with
  | 2 => some (fmtE4M3, fmtE4M3)
  | 3 => some (fmtE4M3, fmtE5M2)
  | 4 => some (fmtE5M2, fmtE4M3)
  | 5 => some (fmtE5M2, fmtE5M2)
  | 6 => some (fmtBF16, fmtBF16)
  | _ => none

/-- Bytes of a weight or activation element. -/
def mmSize (fmt : Nat) : Nat := if fmt = 6 then 2 else 1

/-- R157: activation elements for one tile row: two in INT4 and N2M4 modes. -/
def mmPer (d : StepD) : Nat := if mmFmt d = 1 ∨ mmPlane d = true then 2 else 1

/-- Bytes of an output element (R156). -/
def outSize (out : Nat) : Nat := if out ≤ 2 then 1 else if out = 3 then 2 else 4

/-- R157: where activation or output row `m` starts, from the operand's row 0. -/
def mmRow (d : StepD) (i m : Nat) : Nat :=
  if mmOp d = 2 then 8 * (d.opnd i).rowStride * (m / 4) + m % 4 * 0x40000 else 8 * (d.opnd i).rowStride * m

/-- R157: whether this step drains through the quantisation table (operand 3). -/
def mmQuant (d : StepD) : Bool := mmDrain d && decide (mmOut d ≤ 3)

/-- R161: KEEP reuses the tile: TILE_TAG is valid and shows the step's task, frame and FMT. -/
def mmKept (e : StepEnv) (x : Stn) : Bool :=
  mmKeep e.d && decide (x.cellKey = some (e.x.task, e.x.frame) ∧ x.cellFmt = mmFmt e.d)

/-- R157, R201: the activation elements [lo, hi) of a row that meet an unmasked weight row; in N2M4 mode, whole groups of four positions
of the 2 × DIM1 that the row holds. -/
def actSpan (e : StepEnv) : Nat × Nat :=
  let kr := predRun e.d.predRow e.dims (e.dim 1)
  if mmPlane e.d then (if kr.2 ≤ kr.1 then (0, 0) else (4 * (kr.1 / 2), Nat.min (2 * e.dim 1) (4 * ceilDiv kr.2 2)))
  else (mmPer e.d * kr.1, mmPer e.d * kr.2)

/-- An access of a wide-port unit. -/
def wideAcc (opnd : Nat) (write : Bool) (ranges : List (Nat × Nat)) : Acc :=
  { opnd := opnd, write := write, narrow := false, ranges := ranges }

/-- R101, R157: the accesses of a matrix step. -/
def mmAccs (e : StepEnv) (x : Stn) : List Acc :=
  let d := e.d
  let m := e.dim 0
  let k := e.dim 1
  let n := e.dim 2
  let kr := predRun d.predRow e.dims k
  let nr := predRun d.predCol e.dims n
  let sz := mmSize (mmFmt d)
  let act := actSpan e
  let osz := outSize (mmOut d)
  let rows := (tab k id).filter (fun r => decide (kr.1 ≤ r ∧ r < kr.2))
  let cols := (tab n id).filter (fun c => decide (nr.1 ≤ c ∧ c < nr.2))
  let load := !(mmKept e x) && decide (k ≠ 0 ∧ n ≠ 0)
  [wideAcc 0 false (if k = 0 ∨ n = 0 then [] else tab m (fun r => (mmRow d 0 r + sz * act.1, sz * (act.2 - act.1))))]
    ++ (if load then [wideAcc 1 false (rows.map (fun r => (8 * (d.opnd 1).rowStride * r, sz * n)))] else [])
    ++ (if load && mmPlane d then [wideAcc 4 false (tab (ceilDiv k 2) (fun g => (8 * (d.opnd 4).rowStride * g, n)))] else [])
    ++ (if mmDrain d then [wideAcc 2 true (tab m (fun r => (mmRow d 2 r + osz * nr.1, osz * (nr.2 - nr.1))))] else [])
    ++ (if mmQuant d then [wideAcc 3 false (cols.map (fun c => (8 * (d.opnd 3).rowStride * c, 16)))] else [])

-- Arithmetic (R170 to R173) -------------------------------------------------------------------------------------------

/-- R171: saturation to INT32, and whether it saturated. -/
def satInt32 (v : Int) : Int × Bool :=
  if 2 ^ 31 ≤ v then (2 ^ 31 - 1, true) else if v < -(2 ^ 31) then (-(2 ^ 31), true) else (v, false)

/-- R171: one cell: its four products and the incoming partial sum added exactly, then rounded once to FP32. The first cell row
has no incoming sum. -/
def cellSum (incoming : Option Nat) (terms : List FV) : Nat :=
  let fs := match incoming with
    | none => terms
    | some c => fval fmt32 c :: terms
  match fs with
  | [] => 0
  | t :: ts => fround fmt32 false (ts.foldl FV.add t)

/-- R171: the chain of 16 cell rows, top to bottom. -/
def chainSum (cells : List (List FV)) : Nat :=
  (cells.foldl (fun acc c => some (cellSum acc c)) none).getD 0

/-- R172: a quantisation record. -/
structure Quant where
  bias : Nat
  scale : Nat
  zero : Int
  relu : Bool
  deriving DecidableEq, Repr

/-- R172. -/
def decodeQuant (bs : List Byte) : Quant :=
  { bias := fld bs 0 4, scale := fld bs 4 4, zero := sfld bs 8 2, relu := fld bs 10 1 = 1 }

/-- R173: an exact value taken to INT8: ties to even, ZERO added, saturated, ReLU at ZERO. A NaN gives ZERO. -/
def toInt8 (v : FV) (zero : Int) (relu : Bool) : Int :=
  let clamp (i : Int) : Int := if 127 < i then 127 else if i < -128 then -128 else i
  let y := match v with
    | .nan => zero
    | .inf neg => if neg then -128 else 127
    | .fin _ _ _ => clamp ((v.toIntRne).getD 0 + zero)
  clamp (if relu && decide (y < zero) then zero else y)

/-- R173: a value rounded to E4M3, E5M2 or BF16 with saturation, ReLU at +0. -/
def toFloatOut (f : Fmt) (v : FV) (relu : Bool) : Nat :=
  let y := fround f true v
  if relu && !(fisNan f y) && (FV.lt (fval f y) (.fin false 0 0) || decide (y = f.sgn true)) then 0 else y

/-- R173: an accumulator sum `a` (an INT32 or FP32 code) through the quantisation record: the output code, whether it is a NaN
result. `isInt` says which kind FMT is. -/
def drainOut (isInt : Bool) (out : Nat) (a : Nat) (q : Quant) : Nat × Bool :=
  let v := if isInt then FV.ofInt (satInt32 (sext 32 a + sext 32 q.bias)).1 else fval fmt32 (fadd fmt32 a q.bias)
  let x := v.mul (fval fmt32 q.scale)
  let nan := match x with | .nan => true | _ => false
  match out with
  | 0 => (toU 8 (toInt8 x q.zero q.relu), nan)
  | 1 => (toFloatOut fmtE4M3 x q.relu, nan)
  | 2 => (toFloatOut fmtE5M2 x q.relu, nan)
  | _ => (toFloatOut fmtBF16 x q.relu, nan)

-- The tile and the pass ----------------------------------------------------------------------------------------------------

/-- A tile as staged: elements by row and column (key 64·k + n), the position plane, the poisoned columns, whether a read was
refused, and whether the plane breaks R203 0x07. -/
structure Tile where
  cells : List (Nat × Word) := []
  plane : List (Nat × Byte) := []
  bad : List Nat := []
  busErr : Bool := false
  fmtErr : Bool := false
  deriving DecidableEq, Repr

/-- R157, R201: the tile read: rows masked by PRED_ROW hold zero weights. -/
def readTile (e : StepEnv) (b : Bus) : Tile :=
  let d := e.d
  let sz := mmSize (mmFmt d)
  let kr := predRun d.predRow e.dims (e.dim 1)
  let n := e.dim 2
  let t := (tab (e.dim 1) id).foldl (fun (t : Tile) k =>
    if kr.1 ≤ k ∧ k < kr.2 then
      let g := b.fetch (e.row 1 k) (sz * n)
      { t with
        busErr := t.busErr || g.busErr
        cells := (tab n id).foldl (fun cs c => sset 0 cs (64 * k + c) (BitVec.ofNat 32 (fld g.bytes (sz * c) sz))) t.cells
        bad := if g.poisoned then (tab n id).foldl (fun l c => if b.tainted (e.row 1 k + sz * c) sz then nins l c else l) t.bad
          else t.bad }
    else t) {}
  if mmPlane d then
    (tab (ceilDiv (e.dim 1) 2) id).foldl (fun (t : Tile) g =>
      let r := b.fetch (e.row 4 g) n
      { t with
        busErr := t.busErr || r.busErr
        fmtErr := t.fmtErr || r.bytes.any (fun y => decide (y.toNat / 4 % 4 ≤ y.toNat % 4 ∨ 16 ≤ y.toNat))
        plane := (tab n id).foldl (fun ps c => sset 0 ps (64 * g + c) (r.bytes.getD c 0)) t.plane
        bad := (tab n id).foldl (fun l c => if b.tainted (e.row 4 g + c) 1 then nins l c else l) t.bad }) t
  else t

/-- R157, R201: the activation element that meets tile row `k` (half `h` in INT4 mode) in column `c`. -/
def actIndex (d : StepD) (x : Stn) (k h c : Nat) : Nat :=
  if mmPlane d then
    let p := (sget 0 x.plane (64 * (k / 2) + c)).toNat
    4 * (k / 2) + (if k % 2 = 0 then p % 4 else p / 4 % 4)
  else if mmFmt d = 1 then 2 * k + h
  else k

/-- R171: the pass sum of output column `c` over the activation elements `act`, as an INT32 value or an FP32 code. -/
def passSum (d : StepD) (x : Stn) (kLo kHi : Nat) (act : List Nat) (c : Nat) : Nat :=
  let w (k : Nat) : Nat := (sget 0 x.cells (64 * k + c)).toNat
  match mmFloat (mmFmt d) with
  | none =>
    let term (k : Nat) : Int :=
      if mmFmt d = 1 then
        sext 4 (w k % 16) * sext 8 (act.getD (actIndex d x k 0 c) 0) + sext 4 (w k / 16) * sext 8 (act.getD (actIndex d x k 1 c) 0)
      else sext 8 (w k) * sext 8 (act.getD (actIndex d x k 0 c) 0)
    toU 32 ((tab 64 id).foldl (fun acc k => if kLo ≤ k ∧ k < kHi then acc + term k else acc) (0 : Int))
  | some (fw, fa) =>
    let term (k : Nat) : FV :=
      if kLo ≤ k ∧ k < kHi then (fval fw (w k)).mul (fval fa (act.getD (actIndex d x k 0 c) 0)) else .fin false 0 0
    chainSum (tab 16 (fun r => tab 4 (fun j => term (4 * r + j))))

/-- R171: an accumulator element plus the pass: the code, and whether an integer sum saturated. -/
def accAdd (isInt : Bool) (old pass : Nat) : Nat × Bool :=
  if isInt then
    let r := satInt32 (sext 32 old + sext 32 pass)
    (toU 32 r.1, r.2)
  else (fadd fmt32 old pass, false)

/-- What a pass leaves: accumulators, their poison, saturations, NaN results, memory, landing. -/
structure Pass where
  bus : Bus
  acc : List (Nat × Word)
  poison : List Nat
  sats : Nat := 0
  nans : Nat := 0
  landed : Landed := .done
  busErr : Bool := false
  read : Bool := false
  deriving DecidableEq, Repr

/-- R158, R159, R171, R174: one activation row through the tile into accumulator row `m`. -/
def passRow (e : StepEnv) (x : Stn) (clr : Bool) (q : Pass) (m : Nat) : Pass :=
  let d := e.d
  let k := e.dim 1
  let n := e.dim 2
  let kr := predRun d.predRow e.dims k
  let nr := predRun d.predCol e.dims n
  let sz := mmSize (mmFmt d)
  let sp := actSpan e
  let g := if k = 0 then { bytes := [], poisoned := false, busErr := false }
    else q.bus.fetch (e.base 0 + mmRow d 0 m + sz * sp.1) (sz * (sp.2 - sp.1))
  let act := tab sp.2 (fun i => if i < sp.1 then 0 else fld g.bytes (sz * (i - sp.1)) sz)
  let isInt := (mmFloat (mmFmt d)).isNone
  let q := { q with busErr := q.busErr || g.busErr, read := q.read || g.poisoned }
  (tab 64 id).foldl (fun (q : Pass) c =>
    let key := 64 * m + c
    if n ≤ c then (if predOn d.predCol e.dims c then q
      else { q with acc := sset 0 q.acc key 0, poison := ndel q.poison key })
    else if c < nr.1 ∨ nr.2 ≤ c then { q with acc := sset 0 q.acc key 0, poison := ndel q.poison key }
    else
      let pass := if k = 0 then 0 else passSum d x kr.1 kr.2 act c
      let bad := g.poisoned || (decide (k ≠ 0) && decide (c ∈ x.cellPoison))
      let r := if clr then (pass, false) else accAdd isInt (sget 0 q.acc key).toNat pass
      let bad := bad || (!clr && decide (key ∈ q.poison))
      { q with
        acc := sset 0 q.acc key (BitVec.ofNat 32 r.1)
        poison := if bad then nins q.poison key else ndel q.poison key
        sats := q.sats + b2n r.2 }) q

/-- R172, R173, R174: output row `m` drained. -/
def drainRow (e : StepEnv) (dyn : StepDyn) (quants : List (Quant × Bool)) (q : Pass) (m : Nat) : Pass :=
  let d := e.d
  let nr := predRun d.predCol e.dims (e.dim 2)
  let out := mmOut d
  let sz := outSize out
  let isInt := (mmFloat (mmFmt d)).isNone
  let cols := (tab (e.dim 2) id).filter (fun c => decide (nr.1 ≤ c ∧ c < nr.2))
  let els := cols.map (fun c =>
    let a := (sget 0 q.acc (64 * m + c)).toNat
    let qr := quants.getD c ({ bias := 0, scale := 0, zero := 0, relu := false }, false)
    let r := if out = 4 then (a, false) else drainOut isInt out a qr.1
    (leBytes sz r.1, r.2, decide (64 * m + c ∈ q.poison) || (decide (out ≤ 3) && qr.2)))
  let a := e.base 2 + mmRow d 2 m + sz * nr.1
  let w := stepWriteEls (e.atRow dyn m) q.bus 2 a sz (els.map (fun x => (x.1, x.2.2)))
  { q with bus := w.1, landed := q.landed.and w.2,
           nans := q.nans + lsum (els.map (fun x => b2n x.2.1)) }

/-- R156 to R174: the data path of a matrix step of station `i`. -/
def mmEffect (i : Nat) (p : Fin 2) (dyn : StepDyn) (e : StepEnv) (s : State) : Done :=
  let d := e.d
  let hit := conflictHit e dyn
  let s := s.taint e.u p hit
  let x := s.stn i
  let k := e.dim 1
  let n := e.dim 2
  let kept := mmKept e x
  let load := !kept && decide (k ≠ 0 ∧ n ≠ 0)
  let t : Tile := if load then readTile e s.bus else { bad := x.cellPoison }
  let clr := mmClr d || decide (x.holder ≠ some p) || x.draining.isSome
  let rows := if clr then e.dim 0 else Nat.max x.chain (e.dim 0)
  let b := (countDyn s s.bus i e.x.entry.strict dyn).inc (stnB i + 0x100)
  let b := if x.ramp = .full then b else b.bump (stnB i + 0x128) 4
  let b := if load then (b.inc (stnB i + 0x10C)).setReg (stnB i + 8)
      (2 ^ 31 + mmFmt d * 2 ^ 28 + e.x.task % 1024 * 65536 + e.x.frame % 65536) else b
  let b := if load && mmKeep d then b.inc (stnB i + 0x110) else b
  let x := if load then { x with cells := t.cells, plane := t.plane, cellPoison := t.bad, cellFmt := mmFmt d,
                                 cellKey := some (e.x.task, e.x.frame) } else x
  let conf := if hit then [0x10] else []
  if load && t.fmtErr then
    let as := mmAccs e x
    let b := poisonRanges e b as
    let x := { x with accPoison := (tab (64 * rows) id) ++ x.accPoison.filter (fun key => decide (64 * rows ≤ key)) }
    { s := (({ s with bus := b }).setStn i x).setRamp i .full 16, codes := conf ++ [0x09], signals := false }
  else
    let q0 : Pass := { bus := b.bump (stnB i + 0x108) (if k = 0 ∨ n = 0 then 0 else e.dim 0), acc := x.acc, poison := x.accPoison,
                       busErr := t.busErr }
    let q := if n = 0 then q0 else (tab (e.dim 0) id).foldl (passRow e x clr) q0
    let nr := predRun d.predCol e.dims n
    let quants := if mmQuant d then tab n (fun c =>
        if nr.1 ≤ c ∧ c < nr.2 then
          let g := q.bus.fetch (e.row 3 c) 16
          (decodeQuant g.bytes, g.poisoned)
        else ({ bias := 0, scale := 0, zero := 0, relu := false }, false)) else []
    let q := if mmDrain d ∧ n ≠ 0 then (tab (e.dim 0) id).foldl (drainRow e dyn quants) q else q
    let b := if q.sats = 0 then q.bus else (q.bus.bump (stnB i + 0x12C) q.sats).raise (stnB i) 30
    let b := if q.nans = 0 then b else (b.bump (stnB i + 0x130) q.nans).raise (stnB i) 29
    let poison := q.read || (load && decide (t.bad ≠ [])) || quants.any (·.2)
    let drained := mmDrain d && decide (n ≠ 0)
    let x := { x with acc := if drained then [] else q.acc, accPoison := if drained then [] else q.poison, chain := rows }
    let s := ((({ s with bus := b }).setStn i x).setRamp i .full 16).holdAcc i (some p)
    let s := if mmDrain d then s.setStn i { s.stn i with draining := some [] } else s
    let bus := if q.busErr then [0x08] else q.landed.codes
    { s := s, codes := conf ++ (if poison then [0x11] else []) ++ bus }

/-- R158: DIM0 above 1,024, DIM1 above 64 or DIM2 above 64 is not issued. -/
def mmPre (e : StepEnv) : List Nat :=
  if 1024 < e.dim 0 ∨ 64 < e.dim 1 ∨ 64 < e.dim 2 then [0x0B] else []

/-- R158, R160: with DIM0 = 0 the accumulators are still taken or released, and a DRAIN leaves the file zeroed (R159). -/
def mmZero (i : Nat) (p : Fin 2) (e : StepEnv) (s : State) : State :=
  if mmDrain e.d then (s.setStn i { s.stn i with acc := [], accPoison := [] }).holdAcc i none
  else s.holdAcc i (some p)

/-- The matrix step of OP code `op` on station `i` (R156, R160). -/
def mmUnit (i : Nat) (p : Fin 2) (op : Nat) (dyn : StepDyn) : UnitOp :=
  { sel := fun d => d.unit = 1 && mmOp d = op
    ready := fun _ s => (s.stn i).holder = none || (s.stn i).holder = some p
    pre := fun e _ => mmPre e
    accs := fun e s => mmAccs e (s.stn i)
    eff := mmEffect i p dyn
    zero := mmZero i p }

/-- R156 MM. -/
def runMm (i : Fin 32) (p : Fin 2) (dyn : StepDyn) (s : State) : Host.Outcome State Fault Refusal :=
  .next (runStep (.stn i) p (mmUnit i.val p 1 dyn) s)

/-- R157 MMB. -/
def runMmb (i : Fin 32) (p : Fin 2) (dyn : StepDyn) (s : State) : Host.Outcome State Fault Refusal :=
  .next (runStep (.stn i) p (mmUnit i.val p 2 dyn) s)

/-- R164, R182: the cycles per cell row of a ramp. -/
def Bus.rampStep (b : Bus) (i : Nat) : Nat := Nat.max 3 (Nat.min 8 (b.field (stnB i + 4) 3 0))

/-- R164: RAMP_DOWN: `x.idle` cycles after the last activation row has entered and the last result has left the arrays: from IDLE_HOLD
on, one cell row is disabled every RAMP_STEP cycles, row 15 first; weights and TILE_TAG stay. -/
def execRampDown (x : IdleStation) (s : State) : Host.Outcome State Fault Refusal :=
  .next (s.main fun s =>
    let i := x.stn
    let idle := x.idle
    let hold := s.bus.field (stnB i.val + 4) 31 16
    let t := idle - hold
    let k := s.bus.rampStep i.val
    if (s.stn i.val).ramp = .off ∨ idle < hold then s
    else if 16 * k ≤ t then s.setRamp i.val .off 0
    else s.setRamp i.val .down (Nat.min (s.bus.field (stnB i.val) 5 1) (15 - t / k)))

end Sys2Proof.Machine
end

