-- ==== Sys2Proof/Machine/Rulebook.lean ====
section
/-! DEFINITION. The rulebook engines (R183 to R190): world keys (R52), kernels (R185), the hash table (R184) and the seven RBE
operations (R186, R187), with the format violation of R203. -/

namespace Sys2Proof.Machine

/-- R52: the world key of indices (x, y, z). -/
def worldKey (x y z : Int) : Nat := toU 21 z * 2 ^ 42 + toU 21 y * 2 ^ 21 + toU 21 x

/-- R52: the indices of a world key. -/
def keyIdx (k : Nat) : Int × Int × Int := (sext 21 (bits k 20 0), sext 21 (bits k 41 21), sext 21 (bits k 62 42))

/-- Whether an index lies in [−2^20, 2^20). -/
def inGrid (i : Int) : Bool := decide (-(2 ^ 20) ≤ i ∧ i < 2 ^ 20)

/-- R185: a kernel: strided axes, table size and extents. -/
structure Kernel where
  sx : Bool
  sy : Bool
  sz : Bool
  tlog : Nat
  ex : Nat
  ey : Nat
  ez : Nat
  deriving DecidableEq, Repr

/-- R185: an extent from its code. -/
def extent (c : Nat) : Nat := if c = 0 then 1 else if c = 1 then 3 else 2

/-- R185: the kernel coded in raw DIM2. -/
def decodeKernel (w : Nat) : Kernel :=
  { sx := bit w 13, sy := bit w 14, sz := bit w 15, tlog := bits w 12 8, ex := extent (bits w 1 0), ey := extent (bits w 3 2),
    ez := extent (bits w 5 4) }

/-- The lowest offset of an extent. -/
def extLow (e : Nat) : Int := if e = 3 then -1 else 0

/-- R185: the offsets, in the order of their numbers. -/
def Kernel.offsets (k : Kernel) : List (Int × Int × Int) :=
  tab (k.ex * k.ey * k.ez) (fun o =>
    (extLow k.ex + (o % k.ex : Nat), extLow k.ey + (o / k.ex % k.ey : Nat), extLow k.ez + (o / (k.ex * k.ey) : Nat)))

/-- R187: the down key of a key: floor(index / 2) on each strided axis. -/
def Kernel.down (k : Kernel) (key : Nat) : Nat :=
  let i := keyIdx key
  worldKey (if k.sx then i.1 / 2 else i.1) (if k.sy then i.2.1 / 2 else i.2.1) (if k.sz then i.2.2 / 2 else i.2.2)

/-- R187: the neighbour key of an output site at an offset, none outside the grid. `strided` is RB_STRIDED. -/
def Kernel.neighbour (k : Kernel) (strided : Bool) (key : Nat) (d : Int × Int × Int) : Option Nat :=
  let i := keyIdx key
  let x := (if strided && k.sx then 2 * i.1 else i.1) + d.1
  let y := (if strided && k.sy then 2 * i.2.1 else i.2.1) + d.2.1
  let z := (if strided && k.sz then 2 * i.2.2 else i.2.2) + d.2.2
  if inGrid x && inGrid y && inGrid z then some (worldKey x y z) else none

/-- R184: the home slot of a key. -/
def homeSlot (tlog key : Nat) : Nat := crc32c (leBytes 8 key) % 2 ^ tlog

/-- What a probe found: the slot's address, whether it holds the key, and the slots read on the way. -/
structure Slot where
  addr : Nat
  found : Bool
  path : List Nat := []
  deriving DecidableEq, Repr

/-- R184: the probe for `key` in the table at `t`, from slot `i`, at most `fuel` slots; `path` holds the slots read so far. -/
def probe (b : Bus) (t tlog key : Nat) (path : List Nat) : Nat → Nat → Option Slot
  | 0, _ => none
  | fuel + 1, i =>
    let a := t + 16 * (i % 2 ^ tlog)
    let g := (b.fetch a 16).bytes
    if bit (fld g 8 4) 31 = false then some { addr := a, found := false, path := a :: path }
    else if fld g 0 8 = key then some { addr := a, found := true, path := a :: path }
    else probe b t tlog key (a :: path) fuel (i + 1)

/-- R184: the probe from the key's home slot. -/
def lookSlot (b : Bus) (t tlog key : Nat) : Option Slot := probe b t tlog key [] (2 ^ tlog) (homeSlot tlog key)

/-- R184: the MIN index and the ORD ordinal of a slot. -/
def slotMin (b : Bus) (a : Nat) : Nat := bits (leNat (b.fetch (a + 8) 4).bytes) 22 0
def slotOrd (b : Bus) (a : Nat) : Nat := bits (leNat (b.fetch (a + 12) 4).bytes) 22 0

/-- What an engine step has done so far: memory, its reads, whether it has read poison, whether what it writes next is computed from poison
(R102), refused accesses, landing, a format violation (code, row). -/
structure Eng where
  bus : Bus
  reads : List (Nat × Nat) := []
  read : Bool := false
  hot : Bool := false
  busErr : Bool := false
  landed : Landed := .done
  fmt : Option (Nat × Nat) := none
  n1 : Nat := 0
  n2 : Nat := 0
  n3 : Nat := 0
  deriving DecidableEq, Repr

/-- A read of an engine step. -/
def Eng.get (g : Eng) (a n : Nat) : List Byte × Eng :=
  let r := g.bus.fetch a n
  (r.bytes, { g with
    bus := g.bus.afterFetch a n, reads := (a, n) :: g.reads, read := g.read || r.poisoned, hot := g.hot || r.poisoned
    busErr := g.busErr || r.busErr })

/-- R102: what is written from here on is computed from poison only where `h` says so. -/
def Eng.cool (g : Eng) (h : Bool) : Eng := { g with hot := h }

/-- A read of `n` elements of `sz` bytes, each with its own poison. -/
def Eng.getEls (g : Eng) (a sz n : Nat) : List (List Byte × Bool) × Eng :=
  let x := g.get a (sz * n)
  (tab n (fun k => (sub x.1 (sz * k) sz, g.bus.tainted (a + sz * k) sz)), x.2.cool g.hot)

/-- The slots of a probe read by an engine step. -/
def Eng.slots (g : Eng) (l : Slot) : Eng :=
  { g with
    reads := l.path.map (fun a => (a, 16)) ++ g.reads
    read := g.read || l.path.any (fun a => g.bus.tainted a 16)
    hot := g.hot || l.path.any (fun a => g.bus.tainted a 16)
    busErr := g.busErr || (g.bus.fetch l.addr 16).busErr }

/-- A write of an engine step through operand `i`; it carries the poison it is computed from (R102). -/
def Eng.put (g : Eng) (e : StepEnv) (i a : Nat) (bs : List Byte) : Eng :=
  let w := stepWrite e g.bus i a bs (g.hot || e.x.taint)
  { g with bus := w.1, landed := g.landed.and w.2 }

/-- A write of elements of `sz` bytes, each with its own poison besides. -/
def Eng.putEls (g : Eng) (e : StepEnv) (i a sz : Nat) (els : List (List Byte × Bool)) : Eng :=
  let w := stepWriteEls e g.bus i a sz (els.map (fun x => (x.1, x.2 || g.hot)))
  { g with bus := w.1, landed := g.landed.and w.2 }

/-- R204, R21: an engine step's end. `blk` is its register block, `fmtCnt` its FMT_ERR counter, `as` its accesses; a format
violation poisons the write range and is logged, a bus error sets BUS_ERR. -/
def engDone (s : State) (e : StepEnv) (blk fmtCnt : Nat) (as : List Acc) (g : Eng) : Done :=
  let b := g.bus
  let poison := if g.read then [0x11] else []
  match g.fmt with
  | some (code, row) =>
    { s := { s with bus := logFmt (poisonRanges e b as) blk fmtCnt e code row }, reads := some g.reads, codes := poison ++ [0x09],
      signals := false }
  | none =>
    if g.busErr then
      { s := { s with bus := b.raise (blk + 4) 30 }, reads := some g.reads, codes := poison ++ [0x08], signals := false }
    else
      { s := { s with bus := if g.landed = .done then b else b.raise (blk + 4) 30 }, reads := some g.reads, codes := poison ++ g.landed.codes,
        signals := g.landed = .done }

/-- R186: FIRST = DIM0 field × i. -/
def StepEnv.first (e : StepEnv) : Nat := e.d.dims.getD 0 0 * innerIndex e.fr e.x

/-- The kernel of an RBE step. -/
def rbKernel (e : StepEnv) : Kernel := decodeKernel (e.d.dims.getD 2 0)

/-- The sites FIRST to FIRST + n − 1. -/
def rbSites (e : StepEnv) : List Nat := tab (e.dim 0) (e.first + ·)

/-- The key of site `r` of the list in OPND0. -/
def siteKey (e : StepEnv) (g : Eng) (r : Nat) : Nat × Eng :=
  let x := g.get (e.row 0 r) 8
  (leNat x.1, x.2)

/-- An access with the wide port. -/
def engAcc (o : Nat) (w : Bool) (l : List (Nat × Nat)) : Acc := { opnd := o, write := w, narrow := false, ranges := l }

/-- The access of a site list. -/
def siteAcc (e : StepEnv) : Acc :=
  engAcc 0 false ((rbSites e).map (fun r => (8 * (e.d.opnd 0).rowStride * r, 8)))

/-- The whole hash table as an access. -/
def tableAcc (e : StepEnv) (w : Bool) : Acc := engAcc 1 w [(0, 16 * 2 ^ (rbKernel e).tlog)]

/-- R187: one neighbour-map row: the entries in offset order, each with its poison. -/
def mapRow (e : StepEnv) (strided : Bool) (g : Eng) (key : Nat) : List (Nat × Bool) × Eng :=
  let k := rbKernel e
  k.offsets.foldl (fun (q : List (Nat × Bool) × Eng) d =>
    let x := q.2.cool g.hot
    match k.neighbour strided key d with
    | none => (q.1 ++ [(0xFFFFFFFF, x.hot)], { x with n3 := x.n3 + 1 })
    | some nk =>
      match lookSlot x.bus (e.base 1) k.tlog nk with
      | some sl =>
        let y := { x.slots sl with n1 := x.n1 + 1 }
        if sl.found then (q.1 ++ [(slotMin x.bus sl.addr, y.hot)], { y with n2 := y.n2 + 1 })
        else (q.1 ++ [(0xFFFFFFFF, y.hot)], y)
      | none => (q.1 ++ [(0xFFFFFFFF, x.hot)], { x with n1 := x.n1 + 1 })) ([], g)

/-- R187: RB_SUBM and RB_STRIDED: map rows and the chunk's count table. -/
def rbMap (strided : Bool) (e : StepEnv) (g : Eng) : Eng :=
  let n := (rbKernel e).offsets.length
  let r := (rbSites e).foldl (fun (q : List (Nat × Bool) × Eng) r =>
    let k := siteKey e (q.2.cool false) r
    let m := mapRow e strided k.2 k.1
    (tab n (fun o =>
      let x := m.1.getD o (0xFFFFFFFF, false)
      let y := q.1.getD o (0, false)
      (y.1 + (if x.1 = 0xFFFFFFFF then 0 else 1), y.2 || x.2)),
      (m.2.cool false).putEls e 2 (e.row 2 r) 4 (m.1.map (fun x => (leBytes 4 x.1, x.2))))) (tab n (fun _ => (0, false)), g)
  let words := tab 32 (fun o => if o = 31 then (lsum (r.1.map (·.1)), r.1.any (·.2)) else r.1.getD o (0, false))
  (r.2.cool false).putEls e 3 (e.base 3 + 128 * innerIndex e.fr e.x) 4 (words.map (fun x => (leBytes 4 x.1, x.2)))

/-- The accesses of RB_SUBM and RB_STRIDED. -/
def rbMapAccs (e : StepEnv) : List Acc :=
  [siteAcc e, tableAcc e false,
   engAcc 2 true ((rbSites e).map (fun r => (8 * (e.d.opnd 2).rowStride * r, 4 * (rbKernel e).offsets.length))),
   engAcc 3 true [(128 * innerIndex e.fr e.x, 128)]]

/-- R186: a key put into the table with index `i`; `minimum` takes the lower index (RB_MARK), otherwise another index is a
violation (R203 0x01). -/
def rbPut (e : StepEnv) (minimum : Bool) (g : Eng) (key i : Nat) : Eng :=
  if g.fmt.isSome then g
  else
    match lookSlot g.bus (e.base 1) (rbKernel e).tlog key with
    | none => g
    | some sl =>
      let g := { g.slots sl with n1 := g.n1 + 1 }
      if sl.found then
        let m := slotMin g.bus sl.addr
        if minimum then (if i < m then g.put e 1 (sl.addr + 8) (leBytes 4 (2 ^ 31 + i)) else g)
        else if m = i then g
        else { g with fmt := some (0x01, i) }
      else g.put e 1 sl.addr (leBytes 8 key ++ leBytes 4 (2 ^ 31 + i))

/-- The leaders of the chunk, with their down keys' slots, the down keys, and whether poison was met up to there, in site order (R187). -/
def rbLeaders (e : StepEnv) (g : Eng) : List (Nat × Nat × Bool) × Eng :=
  (rbSites e).foldl (fun (q : List (Nat × Nat × Bool) × Eng) r =>
    let k := siteKey e q.2 r
    let dk := (rbKernel e).down k.1
    let g := { k.2 with n1 := k.2.n1 + 1 }
    match lookSlot g.bus (e.base 1) (rbKernel e).tlog dk with
    | some sl =>
      let g := g.slots sl
      if sl.found && decide (slotMin g.bus sl.addr = r) then (q.1 ++ [(sl.addr, dk, g.hot)], g) else (q.1, g)
    | none => (q.1, g)) ([], g)

/-- R187: the sum B of count words 0 to i − 1. -/
def rbBase (e : StepEnv) (g : Eng) : Nat × Eng :=
  (tab (innerIndex e.fr e.x) id).foldl (fun (q : Nat × Eng) i =>
    let x := q.2.get (e.base 3 + 4 * i) 4
    (q.1 + leNat x.1, x.2)) (0, g)

/-- R187 RB_EMIT: the leaders numbered and their down keys written to the output site list. -/
def rbEmitEff (e : StepEnv) (g : Eng) : Eng :=
  let b := rbBase e g
  let l := rbLeaders e b.2
  let g := l.1.zipIdx.foldl (fun (g : Eng) x =>
    let ord := b.1 + x.2
    ((g.cool x.1.2.2).put e 1 (x.1.1 + 12) (leBytes 4 (2 ^ 31 + ord))).put e 2 (e.row 2 ord) (leBytes 8 x.1.2.1)) l.2
  { g with n2 := l.1.length }

/-- The quadrant's block and its ENABLE. -/
def rbReady (q : Nat) (_ : StepEnv) (s : State) : Bool := s.bus.flag (rbeB q) 0

/-- An RBE operation of code `op`; `cnt` adds its counters. -/
def rbUnit (q op : Nat) (pre : StepEnv → List Nat) (accs : StepEnv → State → List Acc) (eff : StepEnv → Eng → Eng)
    (cnt : StepEnv → Eng → Bus → Bus) : UnitOp :=
  { sel := fun d => d.unit = 4 && d.op = op
    ready := rbReady q
    pre := fun e _ => pre e
    accs := accs
    eff := fun e s =>
      let g := eff e { bus := s.bus }
      engDone s e (rbeB q) (rbeB q + 0x11C) (accs e s) { g with bus := cnt e g g.bus } }

/-- R206: SITES and PROBES. -/
def rbCounts (q : Nat) (e : StepEnv) (g : Eng) (b : Bus) : Bus :=
  (b.bump (rbeB q + 0x100) (e.dim 0)).bump (rbeB q + 0x104) g.n1

/-- R206: SITES, PROBES, PRESENT, ABSENT and OUT_OF_GRID of a map step. -/
def rbMapCounts (q : Nat) (e : StepEnv) (g : Eng) (b : Bus) : Bus :=
  (((rbCounts q e g b).bump (rbeB q + 0x108) g.n2).bump (rbeB q + 0x10C) (g.n1 - g.n2)).bump (rbeB q + 0x110) g.n3

/-- R189: a table is filled at most to half. -/
def rbRoom (e : StepEnv) : List Nat :=
  if 2 ^ ((rbKernel e).tlog - 1) < e.first + e.dim 0 then [0x0B] else []

/-- R186 RB_CLEAR: what the step does. -/
def opRbClear (q : Fin 4) : UnitOp :=
  rbUnit q.val 0x001 (fun _ => []) (fun e _ => [engAcc 1 true [(128 * e.first, 128 * e.dim 0)]])
    (fun e g => g.put e 1 (e.base 1 + 128 * e.first) (zeros (128 * e.dim 0)))
    (fun e _ b => b.bump (rbeB q.val + 0x118) (e.dim 0))

/-- R186 RB_CLEAR. -/
def runRbClear (q : Fin 4) (p : Fin 2) (s : State) : Host.Outcome State Fault Refusal :=
  .next (runStep (.rbe q) p (opRbClear q) s)

/-- R186 RB_INSERT: what the step does. -/
def opRbInsert (q : Fin 4) : UnitOp :=
  rbUnit q.val 0x002 rbRoom (fun e _ => [siteAcc e, tableAcc e false, tableAcc e true])
    (fun e g => (rbSites e).foldl (fun g r => let k := siteKey e (g.cool false) r; rbPut e false k.2 k.1 r) g) (rbCounts q.val)

/-- R186 RB_INSERT. -/
def runRbInsert (q : Fin 4) (p : Fin 2) (s : State) : Host.Outcome State Fault Refusal :=
  .next (runStep (.rbe q) p (opRbInsert q) s)

/-- R187 RB_SUBM: what the step does. -/
def opRbSubm (q : Fin 4) : UnitOp :=
  rbUnit q.val 0x003 (fun _ => []) (fun e _ => rbMapAccs e) (rbMap false) (rbMapCounts q.val)

/-- R187 RB_SUBM. -/
def runRbSubm (q : Fin 4) (p : Fin 2) (s : State) : Host.Outcome State Fault Refusal :=
  .next (runStep (.rbe q) p (opRbSubm q) s)

/-- R187 RB_MARK: what the step does. -/
def opRbMark (q : Fin 4) : UnitOp :=
  rbUnit q.val 0x004 rbRoom (fun e _ => [siteAcc e, tableAcc e false, tableAcc e true])
    (fun e g => (rbSites e).foldl (fun g r => let k := siteKey e (g.cool false) r; rbPut e true k.2 ((rbKernel e).down k.1) r) g)
    (rbCounts q.val)

/-- R187 RB_MARK. -/
def runRbMark (q : Fin 4) (p : Fin 2) (s : State) : Host.Outcome State Fault Refusal :=
  .next (runStep (.rbe q) p (opRbMark q) s)

/-- R187 RB_COUNT: what the step does. -/
def opRbCount (q : Fin 4) : UnitOp :=
  rbUnit q.val 0x005 (fun _ => [])
    (fun e _ => [siteAcc e, tableAcc e false, engAcc 2 true [(4 * innerIndex e.fr e.x, 4)]])
    (fun e g =>
      let l := rbLeaders e g
      { l.2.put e 2 (e.base 2 + 4 * innerIndex e.fr e.x) (leBytes 4 l.1.length) with n2 := l.1.length })
    (fun e g b => (rbCounts q.val e g b).bump (rbeB q.val + 0x114) g.n2)

/-- R187 RB_COUNT. -/
def runRbCount (q : Fin 4) (p : Fin 2) (s : State) : Host.Outcome State Fault Refusal :=
  .next (runStep (.rbe q) p (opRbCount q) s)

/-- R187 RB_EMIT: what the step does. -/
def opRbEmit (q : Fin 4) : UnitOp :=
  rbUnit q.val 0x006 (fun _ => [])
    (fun e s =>
      let b := rbBase e { bus := s.bus }
      let n := (rbLeaders e b.2).1.length
      [siteAcc e, tableAcc e false, tableAcc e true, engAcc 2 true (tab n (fun j => (8 * (e.d.opnd 2).rowStride * (b.1 + j), 8))),
       engAcc 3 false [(0, 4 * innerIndex e.fr e.x)]])
    rbEmitEff (fun e g b => (rbCounts q.val e g b).bump (rbeB q.val + 0x114) g.n2)

/-- R187 RB_EMIT. -/
def runRbEmit (q : Fin 4) (p : Fin 2) (s : State) : Host.Outcome State Fault Refusal :=
  .next (runStep (.rbe q) p (opRbEmit q) s)

/-- R187 RB_STRIDED: what the step does. -/
def opRbStrided (q : Fin 4) : UnitOp :=
  rbUnit q.val 0x007 (fun _ => []) (fun e _ => rbMapAccs e) (rbMap true) (rbMapCounts q.val)

/-- R187 RB_STRIDED. -/
def runRbStrided (q : Fin 4) (p : Fin 2) (s : State) : Host.Outcome State Fault Refusal :=
  .next (runStep (.rbe q) p (opRbStrided q) s)

end Sys2Proof.Machine
end

