-- ==== Sys2Proof/Machine/GatherMerge.lean ====
section
/-! DEFINITION. The gather-merge engines (R191 to R205): gathers, SCATTER with its merge order, DRAIN_ROWS, PACK_UNS, COMPRESS in
the BS4, UNS and N2M4 formats, and TRAIN_EN. -/

namespace Sys2Proof.Machine

def gmeOp (d : StepD) : Nat := bits d.op 11 6
def gmeType (d : StepD) : Nat := bits d.op 5 3
def gmeMode (d : StepD) : Nat := bits d.op 2 0

/-- R191: bytes of an element of a TYPE of the gathers, PACK_UNS and COMPRESS. -/
def gmeSize (d : StepD) : Nat := if gmeType d = 0 then 1 else if gmeType d = 1 then 2 else 4

/-- R203: rows of `len` bytes that operand `i` holds from its row 0 to its region's bound. -/
def rowsIn (e : StepEnv) (i len : Nat) : Nat :=
  let r := operandSlot e.x (e.d.opnd i)
  let avail := r.base + r.bytes - e.base i
  let st := 8 * (e.d.opnd i).rowStride
  if avail < len then 0 else if st = 0 then 1 else (avail - len) / st + 1

/-- A GME operation of GOP `op`. -/
def gmeUnit (g op : Nat) (pre : StepEnv → List Nat) (accs : StepEnv → State → List Acc) (eff : StepEnv → Eng → Eng)
    (cnt : StepEnv → Eng → Bus → Bus) : UnitOp :=
  { sel := fun d => d.unit = 3 && gmeOp d = op
    ready := fun _ s => s.bus.flag (gmeB g) 0
    pre := fun e _ => pre e
    accs := accs
    eff := fun e s =>
      let r := eff e { bus := s.bus }
      engDone s e (gmeB g) (gmeB g + 0x124) (accs e s) { r with bus := cnt e r r.bus } }

/-- A dim outside [lo, hi] stops the task with DIM_EXCEEDS_PLAN (R191). -/
def dimRange (e : StepEnv) (i lo hi : Nat) : List Nat := if e.dim i < lo ∨ hi < e.dim i then [0x0B] else []

-- Gathers (R192) ---------------------------------------------------------------------------------------------------------

/-- R187, R192: the map entry of output site `r` at offset DIM1. -/
def mapEntry (e : StepEnv) (g : Eng) (r : Nat) : Nat × Eng :=
  let x := g.get (e.row 0 r + 4 * e.dim 1) 4
  (leNat x.1, x.2)

/-- R203 0x02: the map entry names no source row. -/
def entryBad (e : StepEnv) (v : Nat) : Bool := decide (v ≠ 0xFFFFFFFF ∧ rowsIn e 1 (8 * e.dim 2) ≤ v)

/-- The map rows read by a gather. -/
def mapAcc (e : StepEnv) : Acc :=
  engAcc 0 false (tab (e.dim 0) (fun r => (8 * (e.d.opnd 0).rowStride * (e.first + r) + 4 * e.dim 1, 4)))

/-- The source rows that valid map entries name. -/
def sourceAcc (e : StepEnv) (s : State) : Acc :=
  engAcc 1 false ((tab (e.dim 0) id).filterMap (fun r =>
    let v := (mapEntry e { bus := s.bus } (e.first + r)).1
    if v = 0xFFFFFFFF ∨ entryBad e v = true then none else some (8 * (e.d.opnd 1).rowStride * v, 8 * e.dim 2)))

/-- R192 GATHER_ALIGNED. -/
def gatherAligned (e : StepEnv) (g : Eng) : Eng :=
  (tab (e.dim 0) id).foldl (fun (g : Eng) r =>
    if g.fmt.isSome then g
    else
      let m := mapEntry e (g.cool false) (e.first + r)
      if entryBad e m.1 then { m.2 with fmt := some (0x02, e.first + r) }
      else if m.1 = 0xFFFFFFFF then { m.2.put e 2 (e.row 2 r) (zeros (8 * e.dim 2)) with n2 := m.2.n2 + 1 }
      else
        let x := m.2.getEls (e.row 1 m.1) 8 (e.dim 2)
        { x.2.putEls e 2 (e.row 2 r) 8 x.1 with n1 := x.2.n1 + 1 }) g

/-- R192 GATHER_COMPACT: only present rows, their output site indices, and their count; where a row comes to lie depends on every map
entry before it. -/
def gatherCompact (e : StepEnv) (g : Eng) : Eng :=
  let g := (tab (e.dim 0) id).foldl (fun (g : Eng) r =>
    if g.fmt.isSome then g
    else
      let m := mapEntry e g (e.first + r)
      if entryBad e m.1 then { m.2 with fmt := some (0x02, e.first + r) }
      else if m.1 = 0xFFFFFFFF then m.2
      else
        let x := m.2.getEls (e.row 1 m.1) 8 (e.dim 2)
        let y := x.2.putEls e 2 (e.row 2 x.2.n1) 8 x.1
        { y.put e 3 (e.base 3 + 4 * x.2.n1) (leBytes 4 (e.first + r)) with n1 := x.2.n1 + 1 }) g
  if g.fmt.isSome then g else g.put e 4 (e.base 4) (leBytes 4 g.n1)

-- Packed rows (R199, R200) -----------------------------------------------------------------------------------------------

/-- R199: a row list whose first `used` entries are used keeps its three conditions; `span` is 256 groups or 512 rows. -/
def rowListOk (l : List Nat) (used span : Nat) : Bool :=
  let u := l.take used
  let asc := (u.zip (u.drop 1)).all (fun p => decide (p.1 < p.2))
  asc && u.all (fun v => decide (v ≠ 0xFFFF)) && (l.drop used).all (fun v => decide (v = 0xFFFF))
    && decide (u.getLastD 0 - u.headD 0 < span)

/-- R197, R198: the 16-bit entries of a row list. -/
def rowList (bs : List Byte) : List Nat := tab (bs.length / 2) (fun i => fld bs (2 * i) 2)

/-- R191: UNS rather than BS4. -/
def isUns (d : StepD) : Bool := bit (gmeMode d) 0

/-- R200 GATHER_PACKED. -/
def gatherPacked (e : StepEnv) (g : Eng) : Eng :=
  let uns := isUns e.d
  let sz := gmeSize e.d
  let per := if uns then 1 else 4
  let l := g.get (e.base 1) (if uns then 128 else 32)
  let lst := rowList l.1
  let used := lst.take (e.dim 1)
  if rowListOk lst (e.dim 1) (if uns then 512 else 256) = false ∨ used.any (fun v => decide (e.dim 2 < per * (v + 1))) = true then
    { l.2 with fmt := some (0x03, e.first) }
  else
    (tab (e.dim 0) id).foldl (fun (g : Eng) r =>
      let row := used.foldl (fun (q : List (List Byte × Bool) × Eng) v =>
        let x := q.2.getEls (e.row 0 (e.first + r) + sz * per * v) sz per
        (q.1 ++ x.1, x.2)) ([], g)
      { row.2.putEls e 2 (e.row 2 r) sz row.1 with n1 := row.2.n1 + 1 }) l.2

-- SCATTER (R194) ---------------------------------------------------------------------------------------------------------

/-- R194: a record named by run and position, with its key. -/
structure Part where
  key : Nat
  addr : Nat
  deriving DecidableEq, Repr

/-- R194: bytes from one partial row to the next. -/
def partStride (n : Nat) : Nat := roundUp (4 * n) 64

/-- R203 0x08, 0x09: the keys of one run tested in windows of 1,024; `top` is the largest key of earlier windows. -/
def runFmt (rows : Nat) : Nat → Nat → Nat → List Nat → Option (Nat × Nat)
  | _, _, _, [] => none
  | pos, top, mx, k :: ks =>
    let top := if pos % 1024 = 0 then mx else top
    if rows ≤ k then some (0x08, pos)
    else if k < top then some (0x09, pos)
    else runFmt rows (pos + 1) top (Nat.max mx k) ks

/-- R194: the records of every run, in run order, and the first violation. -/
def scatterRecs (e : StepEnv) (g : Eng) : List Part × Eng :=
  (tab (e.dim 2) id).foldl (fun (q : List Part × Eng) r =>
    let h := q.2.get (e.row 0 0 + 16 * r) 16
    let data := e.base 1 + 64 * fld h.1 0 4
    let keys := e.base 1 + 64 * fld h.1 4 4
    let n := fld h.1 8 4
    let kb := h.2.get keys (4 * n)
    let ks := tab n (fun j => fld kb.1 (4 * j) 4)
    let fmt := match kb.2.fmt with
      | some x => some x
      | none => runFmt (e.dim 0) 0 0 0 ks
    (q.1 ++ ks.mapIdx (fun j k => { key := k, addr := data + partStride (e.dim 1) * j }), { kb.2 with fmt := fmt })) ([], g)

/-- R194: the records grouped by key, keys ascending, records of a key in the order they leave the tree. -/
def groupKeys (l : List Part) : List (Nat × List Part) :=
  (sortBy (fun (a b : Part) => decide (a.key ≤ b.key)) l).foldr (fun x acc =>
    match acc with
    | (k, ps) :: t => if k = x.key then (k, x :: ps) :: t else (x.key, [x]) :: acc
    | [] => [(x.key, [x])]) []

/-- R194: one element added; INT32 saturates (counted), FP32 rounds. -/
def scatterAdd (isInt : Bool) (a p : Nat) : Nat × Nat :=
  if isInt then
    let r := satInt32 (sext 32 a + sext 32 p)
    (toU 32 r.1, b2n r.2)
  else (fadd fmt32 a p, 0)

/-- R194 SCATTER. -/
def scatterEff (e : StepEnv) (g : Eng) : Eng :=
  let n := e.dim 1
  let isInt := decide (gmeType e.d = 0)
  let add := bit (gmeMode e.d) 0
  let q := scatterRecs e g
  if q.2.fmt.isSome then q.2
  else
    let groups := groupKeys q.1
    let g := groups.foldl (fun (g : Eng) grp =>
      let start := if add then g.getEls (e.row 2 grp.1) 4 n else (tab n (fun _ => (zeros 4, false)), g)
      let acc0 := start.1.map (fun x => (leNat x.1, x.2))
      let r := grp.2.foldl (fun (q : List (Nat × Bool) × Eng) p =>
        let x := q.2.getEls p.addr 4 n
        let els := (q.1.zip x.1).map (fun y => (scatterAdd isInt y.1.1 (leNat y.2.1), y.1.2 || y.2.2))
        (els.map (fun y => (y.1.1, y.2)), { x.2 with n3 := x.2.n3 + lsum (els.map (·.1.2)) })) (acc0, start.2)
      r.2.putEls e 2 (e.row 2 grp.1) 4 (r.1.map (fun x => (leBytes 4 x.1, x.2)))) q.2
    { g with n1 := q.1.length, n2 := groups.length }

/-- R194: the accesses of SCATTER: the run table, keys and rows of each run, and the destination rows named, which ADD reads too. -/
def scatterAccs (e : StepEnv) (s : State) : List Acc :=
  let n := e.dim 1
  let q := scatterRecs e { bus := s.bus }
  let dst := if q.2.fmt.isSome then tab (e.dim 0) (fun k => (8 * (e.d.opnd 2).rowStride * k, 4 * n))
    else (groupKeys q.1).map (fun k => (8 * (e.d.opnd 2).rowStride * k.1, 4 * n))
  (if bit (gmeMode e.d) 0 then [engAcc 2 false dst] else []) ++
  [engAcc 0 false [(0, 16 * e.dim 2)],
   engAcc 1 false (((tab (e.dim 2) id).map (fun r =>
      let h := (s.bus.fetch (e.row 0 0 + 16 * r) 16).bytes
      [(64 * fld h 4 4, 4 * fld h 8 4), (64 * fld h 0 4, partStride n * (fld h 8 4 - 1) + (if fld h 8 4 = 0 then 0 else 4 * n))])).flatten),
   engAcc 2 true dst]

-- DRAIN_ROWS (R195) -------------------------------------------------------------------------------------------------------

/-- R195 DRAIN_ROWS: rows FIRST to FIRST + n − 1 through the quantisation table. -/
def drainRowsEff (e : StepEnv) (g : Eng) : Eng :=
  let n := e.dim 1
  let out := gmeMode e.d
  let isInt := decide (gmeType e.d = 0)
  let qs := (tab n id).foldl (fun (q : List (Quant × Bool) × Eng) c =>
    let x := (q.2.cool false).get (e.row 3 c) 16
    (q.1 ++ [(decodeQuant x.1, x.2.hot)], x.2)) ([], g)
  (tab (e.dim 0) (e.first + ·)).foldl (fun (g : Eng) r =>
    let x := g.getEls (e.row 0 r) 4 n
    let els := (x.1.zip qs.1).map (fun y => (drainOut isInt out (leNat y.1.1) y.2.1, y.1.2 || y.2.2))
    { x.2.putEls e 2 (e.row 2 r) (outSize out) (els.map (fun y => (leBytes (outSize out) y.1.1, y.2))) with
      n1 := x.2.n1 + lsum (els.map (fun y => b2n y.1.2)) }) (qs.2.cool false)

/-- R195: the accesses of DRAIN_ROWS. -/
def drainRowsAccs (e : StepEnv) : List Acc :=
  let rows := tab (e.dim 0) (e.first + ·)
  [engAcc 0 false (rows.map (fun r => (8 * (e.d.opnd 0).rowStride * r, 4 * e.dim 1))),
   engAcc 2 true (rows.map (fun r => (8 * (e.d.opnd 2).rowStride * r, outSize (gmeMode e.d) * e.dim 1))),
   engAcc 3 false (tab (e.dim 1) (fun c => (8 * (e.d.opnd 3).rowStride * c, 16)))]

-- PACK_UNS (R198, R199, R202) ----------------------------------------------------------------------------------------------

/-- R198: a segment: source row, column indices and values (as codes, each with its poison). -/
structure Seg where
  row : Nat
  idx : List Nat
  vals : List (Nat × Bool)
  deriving DecidableEq, Repr

/-- R198: bytes of the index list of a segment with `n` non-zeros. -/
def idxBytes (n : Nat) : Nat := roundUp (2 * n) 8

/-- Whether numbers rise strictly. -/
def rising (l : List Nat) : Bool := (l.zip (l.drop 1)).all (fun p => decide (p.1 < p.2))

/-- R198, R203 0x04: segment `r` of the table in operand `ti`, its data in operand `di`, tested; `vals` says that values are
read after the indices. -/
def readSeg (e : StepEnv) (ti di sz : Nat) (rows width : Nat) (vals : Bool) (g : Eng) (r : Nat) : Seg × Eng :=
  let h := g.get (e.row ti 0 + 16 * r) 16
  let nnz := fld h.1 4 2
  let at' := e.base di + 8 * fld h.1 8 4
  let ib := h.2.get at' (2 * nnz)
  let vb := if vals then ib.2.getEls (at' + idxBytes nnz) sz nnz else ([], ib.2)
  let idx := tab nnz (fun j => fld ib.1 (2 * j) 2)
  let bad := decide (nnz = 0 ∨ 256 < nnz) || !(rising idx) || idx.any (fun c => decide (width ≤ c)) || decide (rows ≤ fld h.1 0 4)
  ({ row := fld h.1 0 4, idx := idx, vals := vb.1.map (fun x => (leNat x.1, x.2)) },
    if bad ∧ vb.2.fmt = none then { vb.2 with fmt := some (0x04, r) } else vb.2)

/-- R199: the live rows packed greedily into tiles of at most 64 rows spanning fewer than 512. -/
def packGreedy : List Nat → List (List Nat)
  | [] => []
  | r :: rs =>
    match packGreedy' r [r] rs with
    | (t, rest) => t :: restTiles rest rs.length
where
  packGreedy' (first : Nat) (acc : List Nat) : List Nat → List Nat × List Nat
    | [] => (acc, [])
    | r :: rs => if acc.length < 64 ∧ r < first + 512 then packGreedy' first (acc ++ [r]) rs else (acc, r :: rs)
  restTiles : List Nat → Nat → List (List Nat)
    | [], _ => []
    | _, 0 => []
    | r :: rs, fuel + 1 =>
      match packGreedy' r [r] rs with
      | (t, rest) => t :: restTiles rest fuel

/-- R202 PACK_UNS: the segments of the chunk, the slab's live rows packed into tiles with their row lists, and their count. -/
def packUnsEff (e : StepEnv) (g : Eng) : Eng :=
  let sz := gmeSize e.d
  let q := (tab (e.dim 0) (e.first + ·)).foldl (fun (q : List Seg × Eng) r =>
    let x := readSeg e 0 1 sz (e.dim 2) 65536 true q.2 r
    (q.1 ++ [x.1], x.2)) ([], g)
  if q.2.fmt.isSome then q.2
  else
    let slab := e.dim 1
    let els := (q.1.map (fun sg => (sg.idx.zip sg.vals).filterMap (fun p =>
      if p.1 / 64 = slab then some (64 * sg.row + p.1 % 64, p.2) else none))).flatten
    let live := (els.map (fun p => p.1 / 64)).foldl nins []
    let tiles := packGreedy live
    let g := tiles.zipIdx.foldl (fun (g : Eng) t =>
      let g := (tab 64 id).foldl (fun (g : Eng) k =>
        let row := match t.1[k]? with
          | some r => tab 64 (fun c => (alook els (64 * r + c)).getD (0, false))
          | none => tab 64 (fun _ => (0, false))
        g.putEls e 2 (e.row 2 (64 * t.2 + k)) sz (row.map (fun x => (leBytes sz x.1, x.2)))) g
      g.put e 3 (e.row 3 t.2) ((tab 64 (fun k => t.1.getD k 0xFFFF)).map (leBytes 2)).flatten) q.2
    { g.put e 4 (e.base 4) (leBytes 4 tiles.length) with n1 := e.dim 0, n2 := tiles.length }

/-- R198, R203: the data of segment entry `h` as a range of the operand that holds it, with values of `sz` bytes where `vals`; nothing
where NNZ is 0 or above 256, which stops the step as a format violation. -/
def segRange (h : List Byte) (sz : Nat) (vals : Bool) : List (Nat × Nat) :=
  let n := fld h 4 2
  if n = 0 ∨ 256 < n then [] else [(8 * fld h 8 4, if vals then idxBytes n + sz * n else 2 * n)]

/-- R202: how many tiles the step will write. -/
def packTiles (e : StepEnv) (s : State) : Nat :=
  let q := (tab (e.dim 0) (e.first + ·)).foldl (fun (l : List Nat) r =>
    let x := readSeg e 0 1 (gmeSize e.d) (e.dim 2) 65536 true { bus := s.bus } r
    if x.2.fmt.isNone && x.1.idx.any (fun c => decide (c / 64 = e.dim 1)) then nins l x.1.row else l) []
  (packGreedy q).length

/-- R202: the accesses of PACK_UNS. -/
def packUnsAccs (e : StepEnv) (s : State) : List Acc :=
  let sz := gmeSize e.d
  let n := packTiles e s
  [engAcc 0 false [(16 * e.first, 16 * e.dim 0)],
   engAcc 1 false ((tab (e.dim 0) (e.first + ·)).flatMap (fun r => segRange (s.bus.fetch (e.row 0 0 + 16 * r) 16).bytes sz true)),
   engAcc 2 true (tab (64 * n) (fun k => (8 * (e.d.opnd 2).rowStride * k, 64 * sz))),
   engAcc 3 true (tab n (fun t => (8 * (e.d.opnd 3).rowStride * t, 128))),
   engAcc 4 true [(0, 4)]]

-- COMPRESS (R191, R197, R198, R201, R205) ------------------------------------------------------------------------------------

/-- R191: COMPRESS's format and MASK. -/
def cmpFmt (d : StepD) : Nat := bits (gmeMode d) 1 0
def cmpMask (d : StepD) : Bool := bit (gmeMode d) 2

/-- The dense source row `r` as N element codes, each with its poison. -/
def denseRow (e : StepEnv) (g : Eng) (r : Nat) : List (Nat × Bool) × Eng :=
  let x := g.getEls (e.row 0 r) (gmeSize e.d) (e.dim 1)
  (x.1.map (fun y => (leNat y.1, y.2)), x.2)

/-- The dense source rows FIRST to FIRST + n − 1. -/
def denseRows (e : StepEnv) (g : Eng) : List (List (Nat × Bool)) × Eng :=
  (tab (e.dim 0) (e.first + ·)).foldl (fun (q : List (List (Nat × Bool)) × Eng) r =>
    let x := denseRow e q.2 r
    (q.1 ++ [x.1], x.2)) ([], g)

/-- Element (k, c) of the dense rows, and its code. -/
def denseEl (rows : List (List (Nat × Bool))) (k c : Nat) : Nat × Bool := (rows.getD k []).getD c (0, false)
def denseAt (rows : List (List (Nat × Bool))) (k c : Nat) : Nat := (denseEl rows k c).1

/-- R197: the 32-byte bitmaps of a BS4 mask, one for each 64 of the source rows; the row list follows them. -/
def bs4Maps (e : StepEnv) : Nat := Nat.max 1 (ceilDiv (e.dim 0) 64)

/-- R197: BS4: the bitmaps and the row list (16 entries) of OPND1; group g of the source is block row g mod 16 of tile g / 16. -/
def compressBs4 (e : StepEnv) (g : Eng) : Eng :=
  let sz := gmeSize e.d
  let m := g.get (e.base 1) (32 * bs4Maps e + 32)
  let lst := rowList (m.1.drop (32 * bs4Maps e))
  let used := (lst.filter (fun v => decide (v ≠ 0xFFFF))).length
  let blk (i j : Nat) : Bool := bit (fld m.1 (2 * i + j / 8) 1) (j % 8)
  let d := denseRows e m.2
  if rowListOk lst used 256 = false ∨ (lst.take used).any (fun v => decide (e.dim 0 < 4 * (v + 1))) = true then
    { d.2 with fmt := some (0x03, e.first) }
  else
    let stray := (tab (e.dim 0) id).find? (fun k =>
      (tab (e.dim 1) id).any (fun c => decide (denseAt d.1 k c ≠ 0) && !(blk (k / 4) (c / 4))))
    match (if cmpMask e.d then none else stray) with
    | some k => { d.2 with fmt := some (0x05, e.first + k) }
    | none =>
      (tab (4 * used) id).foldl (fun (g : Eng) r =>
        let k := 4 * lst.getD (r / 4) 0 + r % 4
        let row := tab (e.dim 1) (fun c => if blk (k / 4) (c / 4) then denseEl d.1 k c else (0, false))
        g.putEls e 2 (e.row 2 r) sz (row.map (fun x => (leBytes sz x.1, x.2)))) d.2

/-- Bytes with their poison as 8-byte granules, each with the poison of its bytes (R102). -/
def granules (l : List (Byte × Bool)) : List (List Byte × Bool) :=
  (chunks 8 l.length l).map (fun c => (c.map (·.1), c.any (·.2)))

/-- R198: UNS: the segments of OPND1 keep their indices; their data image is written at the same offsets of OPND2. -/
def compressUns (e : StepEnv) (g : Eng) : Eng :=
  let sz := gmeSize e.d
  let q := (tab (e.dim 0) (e.first + ·)).foldl (fun (q : List (Seg × Nat × Bool) × Eng) r =>
    let x := readSeg e 1 1 sz (e.dim 2) (e.dim 1) false (q.2.cool false) r
    let at' := fld (x.2.bus.fetch (e.row 1 0 + 16 * r) 16).bytes 8 4
    (q.1 ++ [(x.1, at', x.2.hot)], x.2)) ([], g)
  if q.2.fmt.isSome then q.2
  else q.1.foldl (fun (g : Eng) sg =>
    let d := denseRow e g sg.1.row
    let ix := (sg.1.idx.map (leBytes 2)).flatten
    let n := sg.1.idx.length
    let vs := sg.1.idx.flatMap (fun c => (leBytes sz (d.1.getD c (0, false)).1).map (fun y => (y, (d.1.getD c (0, false)).2)))
    let pad (l : List (Byte × Bool)) (k : Nat) : List (Byte × Bool) := l ++ List.replicate (k - l.length) (0, false)
    (d.2.cool sg.2.2).putEls e 2 (e.base 2 + 8 * sg.2.1) 8
      (granules (pad (ix.map (fun y => (y, false))) (idxBytes n) ++ pad vs (roundUp (sz * n) 8)))) (q.2.cool false)

/-- R201: the pairs P0 < P1. -/
def posPairs : List (Nat × Nat) := [(0, 1), (0, 2), (0, 3), (1, 2), (1, 3), (2, 3)]

/-- R201: N2M4: two positions of each group of four per column, from the plane of OPND1 (MASK) or from the non-zeros; which
positions a group with fewer than two non-zeros takes is open. -/
def compressN2m4 (e : StepEnv) (g : Eng) : Eng :=
  let sz := gmeSize e.d
  let groups := ceilDiv (e.dim 0) 4
  let d := denseRows e g
  (tab groups id).foldl (fun (g : Eng) gr =>
    if g.fmt.isSome then g
    else
      let pl := if cmpMask e.d then g.getEls (e.row 1 gr) 1 (e.dim 1) else ([], g)
      let cols := tab (e.dim 1) (fun c =>
        let nz := (tab 4 id).filter (fun p => decide (denseAt d.1 (4 * gr + p) c ≠ 0))
        if cmpMask e.d then
          let v := leNat (pl.1.getD c ([], false)).1
          (v % 4, v / 4 % 4, decide (v / 4 % 4 ≤ v % 4 ∨ 16 ≤ v), false, (pl.1.getD c ([], false)).2)
        else
          let fit := posPairs.filter (fun p => nz.all (fun z => decide (z = p.1 ∨ z = p.2)))
          let k := (Config.freeByte (g.bus.free + c)).toNat % Nat.max 1 fit.length
          let p := fit.getD k (0, 1)
          (p.1, p.2, false, decide (2 < nz.length), (tab 4 id).any (fun i => (denseEl d.1 (4 * gr + i) c).2)))
      let g := { pl.2 with bus := { pl.2.bus with free := pl.2.bus.free + e.dim 1 } }
      if cols.any (fun c => c.2.2.1) then { g with fmt := some (0x07, e.first + gr) }
      else if cols.any (fun c => c.2.2.2.1) then { g with fmt := some (0x06, e.first + gr) }
      else
        let row (s : Nat) : List (List Byte × Bool) := cols.mapIdx (fun c p =>
          let x := denseEl d.1 (4 * gr + (if s = 0 then p.1 else p.2.1)) c
          (leBytes sz x.1, x.2 || p.2.2.2.2))
        let g := (g.putEls e 2 (e.row 2 (2 * gr)) sz (row 0)).putEls e 2 (e.row 2 (2 * gr + 1)) sz (row 1)
        if (e.d.opnd 3).present then
          g.putEls e 3 (e.row 3 gr) 1 (cols.map (fun p => ([BitVec.ofNat 8 (p.1 + 4 * p.2.1)], p.2.2.2.2)))
        else g) d.2

/-- R191, R205: COMPRESS. -/
def compressEff (e : StepEnv) (g : Eng) : Eng :=
  match cmpFmt e.d with
  | 0 => compressBs4 e g
  | 1 => compressUns e g
  | _ => compressN2m4 e g

/-- R191: the accesses of COMPRESS. -/
def compressAccs (e : StepEnv) (s : State) : List Acc :=
  let sz := gmeSize e.d
  let row (i k : Nat) : Nat := 8 * (e.d.opnd i).rowStride * k
  let src := engAcc 0 false (tab (e.dim 0) (fun r => (row 0 (e.first + r), sz * e.dim 1)))
  match cmpFmt e.d with
  | 0 =>
    let lst := rowList ((s.bus.fetch (e.base 1) (32 * bs4Maps e + 32)).bytes.drop (32 * bs4Maps e))
    let used := (lst.filter (fun v => decide (v ≠ 0xFFFF))).length
    [src, engAcc 1 false [(0, 32 * bs4Maps e + 32)], engAcc 2 true (tab (4 * used) (fun r => (row 2 r, sz * e.dim 1)))]
  | 1 =>
    let segs := (tab (e.dim 0) (e.first + ·)).map (fun r => (s.bus.fetch (e.row 1 0 + 16 * r) 16).bytes)
    [engAcc 0 false (segs.filterMap (fun h => if fld h 0 4 < e.dim 2 then some (row 0 (fld h 0 4), sz * e.dim 1) else none)),
     engAcc 1 false ((16 * e.first, 16 * e.dim 0) :: segs.flatMap (fun h => segRange h sz false)),
     engAcc 2 true (segs.flatMap (fun h => (segRange h sz true).map (fun x => (x.1, idxBytes (fld h 4 2) + roundUp (sz * fld h 4 2) 8))))]
  | _ =>
    let n := ceilDiv (e.dim 0) 4
    [src] ++ (if cmpMask e.d then [engAcc 1 false (tab n (fun k => (row 1 k, e.dim 1)))] else [])
      ++ [engAcc 2 true (tab (2 * n) (fun k => (row 2 k, sz * e.dim 1)))]
      ++ (if (e.d.opnd 3).present then [engAcc 3 true (tab n (fun k => (row 3 k, e.dim 1)))] else [])

/-- R205: the training form is executed only while TRAIN_EN = 1. -/
def trainRefused (g : Nat) (e : StepEnv) (s : State) : Bool := cmpMask e.d && !(s.bus.flag (gmeB g) 1)

-- The meanings -------------------------------------------------------------------------------------------------------------

/-- R208: counters of a gather. -/
def gatherCounts (g : Nat) (_ : StepEnv) (r : Eng) (b : Bus) : Bus :=
  (b.bump (gmeB g + 0x100) r.n1).bump (gmeB g + 0x104) r.n2

/-- R192 GATHER_ALIGNED: what the step does. -/
def opGatherAligned (g : Fin 8) : UnitOp :=
  gmeUnit g.val 0x01 (fun e => dimRange e 2 1 256)
    (fun e s => [mapAcc e, sourceAcc e s, engAcc 2 true (tab (e.dim 0) (fun r => (8 * (e.d.opnd 2).rowStride * r, 8 * e.dim 2)))])
    gatherAligned (gatherCounts g.val)

/-- R192 GATHER_ALIGNED. -/
def runGatherAligned (g : Fin 8) (p : Fin 2) (s : State) : Host.Outcome State Fault Refusal :=
  .next (runStep (.gme g) p (opGatherAligned g) s)

/-- R192 GATHER_COMPACT: what the step does. -/
def opGatherCompact (g : Fin 8) : UnitOp :=
  gmeUnit g.val 0x02 (fun e => dimRange e 2 1 256)
    (fun e s =>
      [mapAcc e, sourceAcc e s, engAcc 2 true (tab (e.dim 0) (fun r => (8 * (e.d.opnd 2).rowStride * r, 8 * e.dim 2))),
       engAcc 3 true [(0, 4 * e.dim 0)], engAcc 4 true [(0, 4)]])
    gatherCompact (gatherCounts g.val)

/-- R192 GATHER_COMPACT. -/
def runGatherCompact (g : Fin 8) (p : Fin 2) (s : State) : Host.Outcome State Fault Refusal :=
  .next (runStep (.gme g) p (opGatherCompact g) s)

/-- R200 GATHER_PACKED: what the step does. -/
def opGatherPacked (g : Fin 8) : UnitOp :=
  gmeUnit g.val 0x03 (fun e => dimRange e 1 0 (if isUns e.d then 64 else 16))
    (fun e _ =>
      let uns := isUns e.d
      let per := gmeSize e.d * (if uns then 1 else 4)
      [engAcc 0 false (tab (e.dim 0) (fun r => (8 * (e.d.opnd 0).rowStride * (e.first + r), gmeSize e.d * e.dim 2))),
       engAcc 1 false [(0, if uns then 128 else 32)],
       engAcc 2 true (tab (e.dim 0) (fun r => (8 * (e.d.opnd 2).rowStride * r, per * e.dim 1)))])
    gatherPacked (fun _ r b => b.bump (gmeB g.val + 0x108) r.n1)

/-- R200 GATHER_PACKED. -/
def runGatherPacked (g : Fin 8) (p : Fin 2) (s : State) : Host.Outcome State Fault Refusal :=
  .next (runStep (.gme g) p (opGatherPacked g) s)

/-- R194 SCATTER: what the step does. -/
def opScatter (g : Fin 8) : UnitOp :=
  gmeUnit g.val 0x08 (fun e => dimRange e 1 1 64 ++ dimRange e 2 1 16) scatterAccs scatterEff
    (fun _ r b =>
      let b := (b.bump (gmeB g.val + 0x10C) r.n1).bump (gmeB g.val + 0x110) r.n2
      if r.n3 = 0 then b else (b.bump (gmeB g.val + 0x114) r.n3).raise (gmeB g.val + 4) 28)

/-- R194 SCATTER. -/
def runScatter (g : Fin 8) (p : Fin 2) (s : State) : Host.Outcome State Fault Refusal :=
  .next (runStep (.gme g) p (opScatter g) s)

/-- R195 DRAIN_ROWS: what the step does. -/
def opDrainRows (g : Fin 8) : UnitOp :=
  gmeUnit g.val 0x09 (fun e => dimRange e 1 1 64) (fun e _ => drainRowsAccs e) drainRowsEff
    (fun _ r b => b.bump (gmeB g.val + 0x118) r.n1)

/-- R195 DRAIN_ROWS. -/
def runDrainRows (g : Fin 8) (p : Fin 2) (s : State) : Host.Outcome State Fault Refusal :=
  .next (runStep (.gme g) p (opDrainRows g) s)

/-- R202 PACK_UNS: what the step does. -/
def opPackUns (g : Fin 8) : UnitOp :=
  gmeUnit g.val 0x10 (fun _ => []) packUnsAccs packUnsEff
    (fun _ r b => (b.bump (gmeB g.val + 0x11C) r.n1).bump (gmeB g.val + 0x120) r.n2)

/-- R202 PACK_UNS. -/
def runPackUns (g : Fin 8) (p : Fin 2) (s : State) : Host.Outcome State Fault Refusal :=
  .next (runStep (.gme g) p (opPackUns g) s)

/-- R191, R205 COMPRESS: what the step does; with MASK only while TRAIN_EN = 1. -/
def opCompress (g : Fin 8) : UnitOp :=
  let o := gmeUnit g.val 0x11 (fun e => dimRange e 1 1 64) compressAccs compressEff (fun _ _ b => b)
  { o with
    accs := fun e s => if trainRefused g.val e s then [] else compressAccs e s
    eff := fun e s =>
      if trainRefused g.val e s then
        { s := s.onBus (fun b => b.note (gmeB g.val + 0x128) (gmeB g.val + 4) 29), codes := [0x08], signals := false }
      else o.eff e s }

/-- R191, R205 COMPRESS. -/
def runCompress (g : Fin 8) (p : Fin 2) (s : State) : Host.Outcome State Fault Refusal :=
  .next (runStep (.gme g) p (opCompress g) s)

/-- R205, R209: TRAIN_EN of GME `g` written: 1 is kept only in COMMISSION. -/
def State.writeTrainEn (s : State) (g : Nat) (v : Bool) : State :=
  s.onBus (·.setFlag (gmeB g) 1 (v && decide (s.sd.state = .commission)))

/-- R205 TRAIN_EN. -/
def execTrainEn (g : Fin 8) (v : Bool) (s : State) : Host.Outcome State Fault Refusal :=
  .next (s.main fun s => s.writeTrainEn g.val v)

end Sys2Proof.Machine
end

