-- ==== Sys2Proof/Machine/History.lean ====
section
/-! DEFINITION. The history store and the backsight engines (R67 to R92): bricks and their hash (R68, R69), slots and their
classes (R70, R71), lookups (R75) and writes (R76), the sharded store (R87, R88) and the store registers (R83, R90, R91). -/

namespace Sys2Proof.Machine

-- Layout ----------------------------------------------------------------------------------------------------------------

/-- R68: the brick key of a voxel. -/
def brickKey (x y z : Int) : Nat := toU 19 (z / 4) * 2 ^ 38 + toU 19 (y / 4) * 2 ^ 19 + toU 19 (x / 4)

/-- R68: the voxel's offset in its brick. -/
def brickOff (x y z : Int) : Nat :=
  let b (i : Int) (k : Nat) : Nat := b2n (bit (toU 21 i) k)
  32 * b z 1 + 16 * b y 1 + 8 * b x 1 + 4 * b z 0 + 2 * b y 0 + b x 0

/-- R69: the hash of a brick. -/
def brickHash (key : Nat) : Nat :=
  let i := keyIdx key
  crc32c (leBytes 8 (brickKey i.1 i.2.1 i.2.2))

/-- R67, R90: the store's groups, payload bytes and base. -/
def Bus.hsLog (b : Bus) : Nat := b.field (hcB + 8) 28 24
def Bus.hsGroups (b : Bus) : Nat := 2 ^ b.hsLog
def Bus.hsP (b : Bus) : Nat := 128 * Nat.min 8 (Nat.max 1 (b.field (hcB + 8) 19 16))
def Bus.hsBase (b : Bus) : Nat := b.reg64 (hcB + 0x10)
def Bus.hsEpoch (b : Bus) : Nat := b.field (hcB + 0x18) 15 0

/-- R69: the two candidate groups of a key. -/
def Bus.hsGroupsOf (b : Bus) (key : Nat) : Nat × Nat :=
  let c := brickHash key
  let h1 := c % b.hsGroups
  let h2 := c * 0x9E3779B1 % 2 ^ 32 / 2 ^ (32 - b.hsLog)
  (h1, if h2 = h1 then h1 ^^^ 1 else h2)

/-- R69, R87: the device that owns a key. -/
def Bus.hsOwner (b : Bus) (key : Nat) : Nat :=
  if b.flag (hcB + 0x28) 31 then b.field (hcB + 0x100 + 4 * bits (brickHash key) 31 26) 4 0 else b.topo.own

/-- R83: the store answers: initialised and in force. -/
def Bus.hsReady (b : Bus) : Bool := b.flag (hcB + 4) 0 && b.flag hcB 1

/-- R67, R91: HS_CFG and HS_BASE describe a store inside the HBM window. -/
def Bus.hsValid (b : Bus) : Bool :=
  let l := b.field (hcB + 8) 19 16
  decide (10 ≤ b.hsLog ∧ b.hsLog ≤ 24 ∧ 1 ≤ l ∧ l ≤ 8 ∧ b.hsBase % 0x10000 = 0 ∧ 0x100000000 ≤ b.hsBase
    ∧ b.hsBase + b.hsGroups * 1024 + b.hsGroups * 64 * (128 * l) ≤ b.variant.hbmEnd)

/-- R71: the class of a slot for a step of a frame. -/
inductive SlotClass where
  | free | own
  | live (age : Nat)
  | expired (age : Nat)
  deriving DecidableEq, Repr

/-- R70, R71: a candidate slot: its group, whether its tag line reads poisoned, its class, and whether it holds the key. -/
structure Cand where
  group : Nat
  poisoned : Bool
  cls : SlotClass
  holds : Bool
  deriving DecidableEq, Repr

/-- R70: the addresses of slot `m` of group `g`. -/
def Bus.tagAddr (b : Bus) (g m : Nat) : Nat := b.hsBase + 1024 * g + 16 * m
def Bus.payAddr (b : Bus) (g m : Nat) : Nat := b.hsBase + 1024 * b.hsGroups + (64 * g + m) * b.hsP

/-- R71, R75: slot `m` of group `g` as a step of frame `f` with horizon `h` sees it. -/
def Bus.cand (b : Bus) (f h key m g : Nat) : Cand :=
  let a := b.tagAddr g m
  let bs := b.rdN a 16
  let info := fld bs 12 4
  let age := (f + 2 ^ 32 - fld bs 8 4) % 2 ^ 32
  let cls : SlotClass :=
    if bit info 31 = false ∨ bits info 15 0 ≠ b.hsEpoch then .free
    else if age = 0 then .own
    else if age ≤ h then .live age
    else .expired age
  { group := g, poisoned := b.poisoned (a / 128 * 128) 128, cls := cls, holds := decide (cls ≠ .free ∧ fld bs 0 8 = key) }

-- Lookup (R75) --------------------------------------------------------------------------------------------------------------

/-- The result of a request: status word, payload, and whether the payload is poisoned. -/
structure HsAnswer where
  status : Nat
  payload : List Byte
  bad : Bool := false
  deriving DecidableEq, Repr

/-- R75: a status bit with a zero payload. -/
def Bus.hsNone (b : Bus) (i : Nat) (bad : Bool := false) (age : Nat := 0) : HsAnswer :=
  { status := 2 ^ i + Nat.min age 2047, payload := zeros b.hsP, bad := bad }

/-- R75: the answer from the slot that holds the key. -/
def Bus.hsHit (b : Bus) (m : Nat) (c : Cand) : HsAnswer :=
  match c.cls with
  | .live a =>
    if b.poisoned (b.payAddr c.group m) b.hsP then b.hsNone 25 true
    else { status := 2 ^ 31 + Nat.min a 2047, payload := b.rdN (b.payAddr c.group m) b.hsP }
  | .expired a => b.hsNone 30 false a
  | _ => b.hsNone 26 true

/-- R75: a lookup of `key` in this device's store for frame `f` and horizon `h`. -/
def Bus.hsFind (b : Bus) (f h key : Nat) : HsAnswer :=
  if b.hsReady = false then b.hsNone 24
  else
    let i := keyIdx key
    let m := brickOff i.1 i.2.1 i.2.2
    let g := b.hsGroupsOf key
    let cs := [b.cand f h key m g.1, b.cand f h key m g.2]
    match cs.find? (fun c => c.holds && !c.poisoned) with
    | some c => b.hsHit m c
    | none => if cs.any (·.poisoned) then b.hsNone 25 true else b.hsNone 29

-- The history cache's lines (R85, R86) ------------------------------------------------------------------------------------------

/-- The line of a byte address, and the first line past the tag area, or the payload area, of group `g`. -/
def Bus.tagLine (b : Bus) (g m : Nat) : Nat × Nat := (b.tagAddr g m / 128, (b.hsBase + 1024 * (g + 1)) / 128)
def Bus.payLines (b : Bus) (g m : Nat) : List (Nat × Nat) :=
  tab (b.hsP / 128) (fun k => (b.payAddr g m / 128 + k, (b.payAddr g 0 + 64 * b.hsP) / 128))

/-- R80: the lines that a request for `key` reads, or a write of it reads and writes, each with the end of its area: both candidate tag
lines, then the payload's of the group `pick` chooses. -/
def Bus.hsLines (b : Bus) (f h key : Nat) (pick : Cand → Cand → Option Nat) : List (Nat × Nat) :=
  let i := keyIdx key
  let m := brickOff i.1 i.2.1 i.2.2
  let g := b.hsGroupsOf key
  [b.tagLine g.1 m, b.tagLine g.2 m]
    ++ (match pick (b.cand f h key m g.1) (b.cand f h key m g.2) with
        | some x => b.payLines x m
        | none => [])

/-- R75: the group whose payload a lookup reads: that of a clean slot that holds the key live. -/
def pickLookup (c1 c2 : Cand) : Option Nat :=
  ([c1, c2].find? (fun c => c.holds && !c.poisoned)).bind (fun c => match c.cls with | .live _ => some c.group | _ => none)

/-- R86: PF_DEPTH. -/
def Bus.pfDepth (b : Bus) : Nat :=
  let d := b.field (hcB + 0x20) 5 0
  if 1 ≤ d ∧ d ≤ 32 then d else 32

/-- R86: lines prefetched for a tracker: each is discarded while the HBM request queue is fuller than PF_THROTTLE/256, which is open. -/
def Bus.prefetch (b : Bus) (t : Tracker) : List Nat → Bus × Tracker
  | [] => (b, t)
  | l :: ls =>
    let full := decide (b.field (hcB + 0x20) 15 8 < (Config.freeWord b.free).toNat % 256)
    let b := { b with free := b.free + 1 }
    if full then (b.inc (hcB + 0x410)).prefetch { t with ahead := l } ls
    else (b.inc (hcB + 0x408)).prefetch { t with ahead := l, held := t.held ++ [l] } ls

/-- R86: the demand line `l` falls to tracker `t`: within the 4 lines above an untrained one's first, or from the newest of a trained one
up to the lines it keeps ahead. -/
def Tracker.covers (t : Tracker) (q l : Nat) : Bool :=
  decide (t.bse = q) && decide (t.newest ≤ l ∧ l ≤ Nat.max t.ahead (t.newest + 4))

/-- R85, R86: BSE `q` accesses line `l`, its area ending before line `stop`: the counts, and the trackers after it. -/
def touchLine (q : Nat) (g : Bus × List Tracker) (x : Nat × Nat) : Bus × List Tracker :=
  let l := x.1
  let b := g.1
  let used := g.2.any (fun t => t.held.contains l)
  let hit := used || Config.hcHit b.hcWays l b.free
  let b := { b with free := b.free + 1 }.inc (if hit then hcB + 0x400 else hcB + 0x404)
  let b := if used then b.inc (hcB + 0x40C) else b
  let ts := g.2.map (fun t => { t with held := t.held.filter (fun y => decide (y ≠ l)) })
  if b.flag hcB 0 = false then (b, ts)
  else
    match ts.find? (·.covers q l) with
    | some t =>
      let t' := { t with newest := l, trained := t.trained || decide (t.first < l) }
      let lo := Nat.max t.ahead l + 1
      let n := Nat.min (l + b.pfDepth) (x.2 - 1) + 1 - lo
      let r := if t'.trained then b.prefetch t' (tab n (lo + ·)) else (b, t')
      (r.1, r.2 :: ts.erase t)
    | none => if hit then (b, ts) else (b, ({ bse := q, first := l, newest := l, ahead := l } :: ts).take 64)

/-- R92: the counter that a status bit advances in BSE `q`. -/
def bseCount (q status : Nat) : Nat :=
  bseB q + 0x100 + 4 * (if bit status 31 then 1 else if bit status 30 then 2 else if bit status 29 then 3
    else if bit status 28 then 4 else if bit status 27 then 5 else if bit status 26 then 6 else if bit status 25 then 7 else 8)

/-- R78, R82: a request counted, with the status bits of ORDER and POISON. -/
def Bus.bseNote (b : Bus) (q status : Nat) : Bus :=
  let b := b.inc (bseCount q status)
  if bit status 26 then b.raise (bseB q + 4) 31 else if bit status 25 then b.raise (bseB q + 4) 30 else b

-- Write (R76) ---------------------------------------------------------------------------------------------------------------

/-- The age that R76 compares. -/
def SlotClass.age : SlotClass → Nat
  | .live a => a
  | .expired a => a
  | _ => 0

/-- R76: the slot a new key takes, and whether a live entry is evicted; none drops the write. A candidate whose line reads
poisoned counts as free. -/
def hsPlace (c1 c2 : Cand) : Option (Cand × Bool) :=
  let cls (c : Cand) : SlotClass := if c.poisoned then .free else c.cls
  match cls c1, cls c2 with
  | .free, _ => some (c1, false)
  | _, .free => some (c2, false)
  | .own, .own => none
  | .own, .live _ => some (c2, true)
  | .own, .expired _ => some (c2, false)
  | .live _, .own => some (c1, true)
  | .expired _, .own => some (c1, false)
  | .live _, .expired _ => some (c2, false)
  | .expired _, .live _ => some (c1, false)
  | .live a, .live d => some (if a < d then (c2, true) else (c1, true))
  | .expired a, .expired d => some (if a < d then (c2, false) else (c1, false))

/-- R76: the group whose payload a write replaces. -/
def pickWrite (c1 c2 : Cand) : Option Nat :=
  match [c1, c2].find? (fun c => c.holds && !c.poisoned) with
  | some c => some c.group
  | none => (hsPlace c1 c2).map (fun x => x.1.group)

/-- R76, R82: tag and payload written in the chosen slot; a poisoned tag line is rewritten whole. -/
def Bus.hsStore (b : Bus) (q f key m : Nat) (c : Cand) (pay : List Byte) (bad : Bool) : Bus :=
  let a := b.tagAddr c.group m
  let tag := leBytes 8 key ++ leBytes 4 f ++ leBytes 4 (2 ^ 31 + b.hsEpoch)
  let b := if c.poisoned then (b.store (a / 128 * 128) (zeros 128) false).inc (bseB q + 0x100 + 4 * 13) else b
  (b.store a tag false).store (b.payAddr c.group m) pay bad

/-- R76: a write of `key` in this device's store for frame `f` and horizon `h`, counted in BSE `q`. -/
def Bus.hsWrite (b : Bus) (q f h key : Nat) (pay : List Byte) (bad : Bool) : Bus :=
  if b.hsReady = false then b.inc (bseB q + 0x100 + 4 * 8)
  else
    let i := keyIdx key
    let m := brickOff i.1 i.2.1 i.2.2
    let g := b.hsGroupsOf key
    let c1 := b.cand f h key m g.1
    let c2 := b.cand f h key m g.2
    match [c1, c2].find? (fun c => c.holds && !c.poisoned) with
    | some c => (b.hsStore q f key m c pay bad).inc (bseB q + 0x100 + 4 * 9)
    | none =>
      match hsPlace c1 c2 with
      | none => b.inc (bseB q + 0x100 + 4 * 12)
      | some (c, evict) =>
        let b := (b.hsStore q f key m c pay bad).inc (bseB q + 0x100 + 4 * 10)
        if evict then b.inc (bseB q + 0x100 + 4 * 11) else b

-- The steps -----------------------------------------------------------------------------------------------------------------

/-- R72: the horizon latched for frame `f`. -/
def State.horizonOf (s : State) (f : Nat) : Nat :=
  match s.intake.latches.find? (fun l => l.frame = f) with
  | some l => l.horizon
  | none => s.bus.field (hcB + 0x0C) 10 0

/-- R134: a step in a list form. -/
def bsList (d : StepD) : Bool := d.op = 2 || d.op = 4

/-- R134: NBR_MASK. -/
def nbrMask (d : StepD) : Nat := d.dims.getD 1 0 + 2 ^ 16 * bits (d.dims.getD 2 0) 10 0

/-- R74: the offsets that NBR_MASK selects, in bit order. -/
def nbrOffsets (mask : Nat) : List (Int × Int × Int) :=
  ((List.range 27).filter (fun i => bit mask i)).map (fun (i : Nat) =>
    ((i % 3 : Nat) - 1, (i / 3 % 3 : Nat) - 1, (i / 9 : Nat) - 1))

/-- R60, R74: the ordinals of a step's input. -/
def bsOrdinals (e : StepEnv) (b : Bus) : List Nat :=
  if bsList e.d then
    let bs := (b.fetch (e.base 0) (4 * e.dim 0)).bytes
    (tab (e.dim 0) (fun i => fld bs (4 * i) 4)).filterMap (fun w => if bit w 31 then none else some (bits w 21 0))
  else tab (e.dim 0) (fun i => e.first + i)

/-- R55, R74: where the key of ordinal `n` lies, from the voxel region at OPND1. -/
def vtOff (n : Nat) : Nat := 0x2000 + 16 * n

/-- R74: the accesses of a BSE step: list, voxel entries, features, status words. -/
def bsAccs (lookup : Bool) (e : StepEnv) (s : State) : List Acc :=
  let ns := bsOrdinals e s.bus
  let k := (nbrOffsets (nbrMask e.d)).length
  let p := s.bus.hsP
  (if bsList e.d then [engAcc 0 false [(0, 4 * e.dim 0)]] else [])
    ++ [engAcc 1 false (ns.map (fun n => (vtOff n, 8)))]
    ++ (if lookup then
          [engAcc 2 true (ns.map (fun n => (n * k * p, k * p))), engAcc 3 true (ns.map (fun n => (4 * n * k, 4 * k)))]
        else [engAcc 2 false (ns.map (fun n => (n * p, p)))])

/-- R80: the Morton code by which a window of requests is sorted. -/
def mortonKey (key : Nat) : Nat :=
  let i := keyIdx key
  let u (j : Int) : Nat := (j + 2 ^ 20).toNat
  (List.range 21).foldl (fun a k => a + 2 ^ (3 * k) * (b2n (bit (u i.1) k) + 2 * b2n (bit (u i.2.1) k) + 4 * b2n (bit (u i.2.2) k))) 0

/-- R80: windows of up to 1,024 requests, each sorted stably by Morton code; `fuel` bounds the windows. -/
def windows (l : List (Nat × Nat)) : List (Nat × Nat) :=
  ((chunks 1024 (l.length + 1) l).map (sortBy (fun x y => decide (mortonKey x.2 ≤ mortonKey y.2)))).flatten

/-- What a backsight step has met: bus, poison read, refused accesses, fault codes, landing, and the tags awaiting a peer. -/
structure Bse where
  bus : Bus
  kydor : Kydor
  trackers : List Tracker := []
  read : Bool := false
  busErr : Bool := false
  codes : List Nat := []
  landed : Landed := .done
  tags : List Nat := []
  deriving DecidableEq, Repr

/-- R85, R86: the lines of a request or write accessed by BSE `q`. -/
def Bse.touch (g : Bse) (q f h key : Nat) (pick : Cand → Cand → Option Nat) : Bse :=
  let r := (g.bus.hsLines f h key pick).foldl (touchLine q) (g.bus, g.trackers)
  { g with bus := r.1, trackers := r.2 }

/-- R21, R84: an access of the step has been refused: it does nothing more. -/
def Bse.refused (g : Bse) : Bool := g.busErr || decide (g.landed ≠ .done)

/-- A fault code met by a step, once per step (R144). -/
def Bse.code (g : Bse) (c : Nat) : Bse := { g with codes := if c ∈ g.codes then g.codes else g.codes ++ [c] }

/-- R88, R411: a history request sent to its owner: bit 63 of the key set, the issuing frame's number, and for a write the
payload; its answer is awaited under the tag. -/
def Bse.send (g : Bse) (op owner key f : Nat) (pay : List Byte) (bad : Bool) (use : TagUse) : Bse :=
  match g.bus.topo.hop owner with
  | none => g
  | some (k, _) =>
    let t := g.kydor.nextTag % 65536
    if h1 : owner < 32 ∧ g.bus.topo.own < 32 ∧ k < 4 then
      let m : KydPkt :=
        { dst := ⟨owner, h1.1⟩, src := ⟨g.bus.topo.own, h1.2.1⟩, vc := 3, cls := g.bus.topo.crosses k, response := false,
          op := BitVec.ofNat 8 op, tag := BitVec.ofNat 16 t, addr := 0, fed := false, ack := true, poison := bad,
          payload := leBytes 8 (key + 2 ^ 63) ++ leBytes 4 f ++ pay }
      { g with
        bus := (g.bus.kydPost k (.kyd k m)).emit (.kyd k m)
        kydor := { g.kydor with nextTag := t + 1, tags := aset g.kydor.tags t (k, use) }
        tags := g.tags ++ [t] }
    else g

/-- R87, R88, R424: the owner of a key as a peer: none where the key is this device's; reachable or not. -/
def Bus.hsPeer (b : Bus) (key : Nat) : Option (Nat × Bool) :=
  let o := b.hsOwner key
  if o = b.topo.own then none
  else some (o, decide (o < b.topo.size) && b.reach o)

/-- R74, R75: the answer to request `j` of a lookup step: counted, its status word and payload written. -/
def Bse.place (g : Bse) (e : StepEnv) (q j : Nat) (r : HsAnswer) : Bse :=
  let b := g.bus.bseNote q r.status
  let p := b.hsP
  let w1 := stepWrite e b 2 (e.base 2 + j * p) r.payload (r.bad || e.x.taint)
  let w2 := stepWrite e w1.1 3 (e.base 3 + 4 * j) (leBytes 4 r.status) e.x.taint
  let g := { g with bus := w2.1, landed := (g.landed.and w1.2).and w2.2 }
  if bit r.status 26 then g.code 0x12 else if bit r.status 25 then g.code 0x11 else g

/-- R75: request `j` answered without a peer. -/
def Bse.answer (g : Bse) (e : StepEnv) (q j : Nat) (r : HsAnswer) : Bse := { g with bus := g.bus.inc (bseB q + 0x100) }.place e q j r

/-- R75: one request of a lookup step: ordinal's key (none where its entry reads poisoned) and neighbour offset. -/
def Bse.request (g : Bse) (e : StepEnv) (q h j : Nat) (key : Option Nat) (d : Int × Int × Int) : Bse :=
  if g.refused then g
  else if g.bus.hsReady = false then g.answer e q j (g.bus.hsNone 24)
  else
    match key with
    | none => g.answer e q j (g.bus.hsNone 25 true)
    | some k =>
      let i := keyIdx k
      let x := i.1 + d.1
      let y := i.2.1 + d.2.1
      let z := i.2.2 + d.2.2
      if inGrid x && inGrid y && inGrid z then
        let key := worldKey x y z
        match g.bus.hsPeer key with
        | none => (g.touch q e.x.frame h key pickLookup).answer e q j (g.bus.hsFind e.x.frame h key)
        | some (_, false) => g.answer e q j (g.bus.hsNone 27)
        | some (o, true) =>
          let g := { g with bus := (g.bus.inc (bseB q + 0x100)).inc (bseB q + 0x100 + 4 * 14) }
          g.send 0x04 o key e.x.frame [] false (.lookup (e.base 3 + 4 * j) (e.base 2 + j * g.bus.hsP) q)
      else g.answer e q j (g.bus.hsNone 28)

/-- R55, R74: the key of ordinal `n`, none where its entry reads poisoned. -/
def Bse.key (g : Bse) (e : StepEnv) (n : Nat) : Option Nat × Bse :=
  let r := if g.refused then { bytes := [], poisoned := false, busErr := false } else g.bus.fetch (e.base 1 + vtOff n) 8
  let g := { g with read := g.read || r.poisoned, busErr := g.busErr || r.busErr }
  if r.poisoned then (none, g.code 0x11) else (some (leNat r.bytes), g)

/-- R74: the slice list of a list form read. -/
def Bse.list (g : Bse) (e : StepEnv) : Bse :=
  if bsList e.d then
    let r := g.bus.fetch (e.base 0) (4 * e.dim 0)
    let g := { g with read := r.poisoned, busErr := r.busErr }
    if r.poisoned then g.code 0x11 else g
  else g

/-- R74, R75: every request of a BS_LOOKUP step. -/
def bsLookupRun (e : StepEnv) (q h : Nat) (g : Bse) : Bse :=
  let offs := nbrOffsets (nbrMask e.d)
  (bsOrdinals e g.bus).foldl (fun g n =>
    let r := g.key e n
    if r.2.refused then r.2
    else (offs.zipIdx).foldl (fun g d => g.request e q h (n * offs.length + d.2) r.1 d.1) r.2) g

/-- R76: one ordinal of a BS_WRITE step. -/
def Bse.write (g : Bse) (e : StepEnv) (q h : Nat) (nk : Nat × Nat) : Bse :=
  if g.refused then g
  else
  let r := g.bus.fetch (e.base 2 + nk.1 * g.bus.hsP) g.bus.hsP
  let g := { g with read := g.read || r.poisoned, busErr := g.busErr || r.busErr }
  let g := if r.poisoned then g.code 0x11 else g
  let bad := r.poisoned || e.x.taint
  if r.busErr then g
  else if g.bus.hsReady = false then { g with bus := g.bus.inc (bseB q + 0x100 + 4 * 8) }
  else
    match g.bus.hsPeer nk.2 with
    | none =>
      let g := g.touch q e.x.frame h nk.2 pickWrite
      { g with bus := g.bus.hsWrite q e.x.frame h nk.2 r.bytes bad }
    | some (_, false) => { g with bus := g.bus.inc (bseB q + 0x100 + 4 * 12) }
    | some (o, true) =>
      let g := { g with bus := g.bus.inc (bseB q + 0x100 + 4 * 14) }
      g.send 0x05 o nk.2 e.x.frame r.bytes bad (.histWrite q)

/-- R76, R80: the ordinals of a BS_WRITE step with their keys; a poisoned entry drops its write. -/
def bsWriteRun (e : StepEnv) (q h : Nat) (g : Bse) : Bse :=
  let r := (bsOrdinals e g.bus).foldl (fun (r : List (Nat × Nat) × Bse) n =>
    let k := r.2.key e n
    match k.1 with
    | some key => (r.1 ++ [(n, key)], k.2)
    | none =>
      (r.1, if k.2.refused then k.2 else { k.2 with bus := if k.2.bus.hsReady = false then k.2.bus.inc (bseB q + 0x100 + 4 * 8)
        else ((k.2.bus.inc (bseB q + 0x100 + 4 * 12)).inc (bseB q + 0x100 + 4 * 7)).raise (bseB q + 4) 30 })) ([], g)
  (windows r.1).foldl (fun g nk => g.write e q h nk) r.2

/-- R84, R102, R79: the end of a backsight step. A refused access sets BUS_ERR and stops the step without a signal or a report;
requests that a peer still holds keep the step unfinished. -/
def bseDone (s : State) (e : StepEnv) (p : Fin 2) (q : Nat) (g : Bse) : Done :=
  let s := { s with bus := g.bus, kydor := g.kydor, hist := { s.hist with trackers := g.trackers } }
  if g.busErr || decide (g.landed = .busErr) then
    let s := match s.ctx e.u p with
      | some y => s.setCtx e.u p { y with owed := y.owed ++ g.tags, told := g.codes }
      | none => s
    { s := (s.onBus (·.raise (bseB q + 4) 29)).stopCtx e.u p, codes := g.codes, signals := false }
  else
    let s := match s.ctx e.u p with
      | some y => s.setCtx e.u p { y with tags := y.tags ++ g.tags, told := g.codes }
      | none => s
    { s := s, codes := g.codes ++ g.landed.codes, signals := g.landed = .done }

/-- R77: the BS_LOOKUP steps in positions [i, i + n) of a step list at `at'`. -/
def anyLookup (b : Bus) (at' i : Nat) : Nat → Bool
  | 0 => false
  | n + 1 =>
    let oc := leNat ((b.fetch (at' + 64 * i) 64).bytes.take 2)
    oc = 0x5001 || oc = 0x5002 || anyLookup b at' (i + 1) n

/-- R77: a lookup step of frame `f` has not completed in some BSE. -/
def State.lookupsOwed (s : State) (fr : OpenFrame) : Bool :=
  match s.fseq.book with
  | none => false
  | some bk => (bk.tasks.zipIdx).any (fun t =>
      t.1.cls = 3 && !(fr.done.contains t.2) &&
      (let from' := match s.fseq.ctxs.find? (fun c => c.2.frame = fr.frame && c.2.task = t.2) with
         | some (_, x) => x.loops.foldl (fun m l => Nat.min m l.start) x.step
         | none => 0
       anyLookup s.bus (s.bus.reg64 (fseqB + 0x18) + t.1.stepOff) from' (t.1.stepCount - from')))

/-- R77, R89: every lookup of frame `f` has completed on every device of the system, as far as the reports here tell. -/
def State.lookupsDoneAll (s : State) (f : Nat) : Bool :=
  decide (s.bus.topo.size ≤ 1)
    || (if s.bus.topo.own = 0 then (List.range s.bus.topo.size).all (fun d => decide (d = 0) || s.kydor.lookDone.contains (d, f))
        else s.kydor.lookDone.contains (0, f))

/-- R77, R81, R89: frame `fr`'s history write may start: no lookup of it is owed, and with rollback its batch has committed. -/
def State.writeMayStart (s : State) (fr : OpenFrame) : Bool :=
  !(s.lookupsOwed fr) && s.lookupsDoneAll fr.frame && (!s.fseq.rollback || fr.committed)

/-- A step of a BSE. -/
def bseOp (q : Fin 4) (p : Fin 2) (lookup : Bool) : UnitOp :=
  { sel := fun d => d.unit = 5 && (if lookup then d.op = 1 || d.op = 2 else d.op = 3 || d.op = 4)
    ready := fun e s => s.bus.flag (bseB q.val) 0 && (lookup || s.writeMayStart e.fr)
    accs := bsAccs lookup
    eff := fun e s =>
      let g := ({ bus := s.bus, kydor := s.kydor, trackers := s.hist.trackers } : Bse).list e
      let h := s.horizonOf e.x.frame
      let s := if lookup then s else { s with hist := { s.hist with writesBegun := nins s.hist.writesBegun e.x.frame } }
      bseDone s e p q.val (if lookup then bsLookupRun e q.val h g else bsWriteRun e q.val h g) }

/-- R75 BS_LOOKUP: what the step does. -/
def opBsLookup (q : Fin 4) (p : Fin 2) : UnitOp :=
  bseOp q p true

/-- R75 BS_LOOKUP. -/
def runBsLookup (q : Fin 4) (p : Fin 2) (s : State) : Host.Outcome State Fault Refusal :=
  .next (runStep (.bse q) p (opBsLookup q p) s)

/-- R76 BS_WRITE: what the step does. -/
def opBsWrite (q : Fin 4) (p : Fin 2) : UnitOp :=
  bseOp q p false

/-- R76 BS_WRITE. -/
def runBsWrite (q : Fin 4) (p : Fin 2) (s : State) : Host.Outcome State Fault Refusal :=
  .next (runStep (.bse q) p (opBsWrite q p) s)

-- Store registers -------------------------------------------------------------------------------------------------------------

/-- R83, R90: HC_STATUS.CFG_ERR. -/
def Bus.hcErr (b : Bus) : Bus := b.raise (hcB + 4) 31

/-- R73, R91: NEW_EPOCH requested for the next frame. -/
def State.newEpoch (s : State) : State := { s with hist := { s.hist with newEpoch := true } }

/-- R83: no BSE has a step issued or a task admitted that it still works on. -/
def State.bseIdle (s : State) : Bool :=
  !(s.fseq.ctxs.any (fun c => match c.1.1 with
    | .bse _ => !c.2.stopped && decide (c.2.step < c.2.entry.stepCount) && c.2.started
    | _ => false))

/-- R83: HS_CLEAR: refused while HS_EN is 0, or while READY is 1 and a BSE is busy; else the tag area is zeroed, the epoch
advanced and READY 0 until the clear completes. One written while a clear runs begins another. -/
def State.hsClear (s : State) : State :=
  if s.bus.flag hcB 1 = false || (s.bus.flag (hcB + 4) 0 && !s.bseIdle) then s.onBus (·.hcErr)
  else s.onBus (fun b =>
    let b := b.zero b.hsBase (b.hsGroups * 1024)
    ((b.setReg (hcB + 0x18) ((b.hsEpoch + 1) % 65536)).setFlag (hcB + 4) 0 false).setFlag (hcB + 4) 1 true)

/-- R91: HS_EN written; 1 with an invalid configuration leaves 0. -/
def Bus.hsEn (b : Bus) (v : Bool) : Bus :=
  if v then (if b.hsValid then
      { b.setFlag hcB 1 true with hcWays := if 4 ≤ b.field (hcB + 0x24) 3 0 then b.field (hcB + 0x24) 3 0 else 12 }
    else (b.setFlag hcB 1 false).hcErr) else b.setFlag hcB 1 false

/-- R83, R90: a write of HS_CFG or HS_BASE is taken only while HS_EN = 0, and then clears READY. -/
def Bus.hsCfgWrite (b : Bus) (w : HsReg) : Bus :=
  if b.flag hcB 1 then b.hcErr
  else
    let b := match w with
      | .cfg v => b.setReg (hcB + 8) (v.toNat &&& 0x1F0F0000)
      | .base v => b.setReg64 (hcB + 0x10) v.toNat
    b.setFlag (hcB + 4) 0 false

/-- R73 NEW_EPOCH. -/
def execNewEpoch (s : State) : Host.Outcome State Fault Refusal := .next (s.main State.newEpoch)

/-- R83 HS_CLEAR. -/
def execHsClear (s : State) : Host.Outcome State Fault Refusal := .next (s.main State.hsClear)

/-- R83: a clear in progress completes: CLEARING 0, READY 1. -/
def execHsClearDone (s : State) : Host.Outcome State Fault Refusal :=
  .next (s.main fun s => s.onBus (fun b =>
    if b.flag (hcB + 4) 1 then (b.setFlag (hcB + 4) 1 false).setFlag (hcB + 4) 0 true else b))

/-- R91 HS_EN. -/
def execHsEn (v : Bool) (s : State) : Host.Outcome State Fault Refusal := .next (s.main fun s => s.onBus (·.hsEn v))

/-- R90: HS_CFG or HS_BASE written. -/
def execHsCfgWrite (w : HsReg) (s : State) : Host.Outcome State Fault Refusal :=
  .next (s.main fun s => s.onBus (·.hsCfgWrite w))

end Sys2Proof.Machine
end

