-- ==== Sys2Proof/Machine/Vector.lean ====
section
/-! DEFINITION. The stations' vector unit (R175 to R180): element-wise operations, conversion, the table step, reductions,
permutation, SORT and MERGE. -/

namespace Sys2Proof.Machine

def vecOp (d : StepD) : Nat := bits d.op 11 6
def vecType (d : StepD) : Nat := bits d.op 5 3
def vecMod (d : StepD) : Nat := bits d.op 2 0

/-- R176: bytes of an element of an ETYPE. -/
def etSize (t : Nat) : Nat :=
  match t with
  | 0 => 1
  | 1 => 2
  | 2 => 4
  | 3 => 1
  | 4 => 1
  | 5 => 2
  | _ => 4

/-- R176: the float format of an ETYPE; none for the integers. -/
def etFmt (t : Nat) : Option Fmt :=
  match t with
  | 3 => some fmtE4M3
  | 4 => some fmtE5M2
  | 5 => some fmtBF16
  | 6 => some fmt32
  | _ => none

/-- R177: an integer fitted to `t` by saturating or wrapping. -/
def fitInt (t : Nat) (sat : Bool) (v : Int) : Nat :=
  let w := 8 * etSize t
  if sat then toU w (if (2 ^ (w - 1) : Nat) ≤ v then (2 ^ (w - 1) : Nat) - 1
                     else if v < -(2 ^ (w - 1) : Nat) then -(2 ^ (w - 1) : Nat) else v)
  else toU w v

/-- The integer value of an element. -/
def intVal (t code : Nat) : Int := sext (8 * etSize t) code

/-- R177: an element widened exactly to FP32. -/
def widen (f : Fmt) (code : Nat) : Nat := fround fmt32 false (fval f code)

/-- R177, R173: an FP32 result rounded to ETYPE; in FP32 it stands as it is. -/
def narrowTo (f : Fmt) (code : Nat) : Nat := if f = fmt32 then code else fconv fmt32 f code

/-- R176: the larger or smaller of two FP32 codes; open where a NaN, or zeros of different sign, meet. -/
def maxMin (isMax : Bool) (a b : Nat) : Nat :=
  let both0 := (fval fmt32 a).isZero && (fval fmt32 b).isZero && decide (a ≠ b)
  if fisNan fmt32 a || fisNan fmt32 b || both0 then
    ((if isMax then Config.maxOpen else Config.minOpen) (BitVec.ofNat 32 a) (BitVec.ofNat 32 b)).toNat
  else if isMax then (if flt fmt32 a b then b else a)
  else (if flt fmt32 b a then b else a)

/-- R176, R177: the float operations on FP32 codes. -/
def floatOp (op a b c : Nat) : Nat :=
  match op with
  | 0x01 => fadd fmt32 a b
  | 0x02 => fsub fmt32 a b
  | 0x03 => fmul fmt32 a b
  | 0x04 => maxMin true a b
  | 0x05 => maxMin false a b
  | _ => fround fmt32 false (((fval fmt32 a).mul (fval fmt32 b)).add (fval fmt32 c))

/-- R176: the integer operations, exact. -/
def intOp (op : Nat) (a b c : Int) : Int :=
  match op with
  | 0x01 => a + b
  | 0x02 => a - b
  | 0x03 => a * b
  | 0x04 => if a < b then b else a
  | 0x05 => if b < a then b else a
  | _ => a * b + c

/-- R177: an element result, and whether it is a NaN result. -/
def elemOp (op t : Nat) (sat : Bool) (a b c : Nat) : Nat × Bool :=
  match etFmt t with
  | none => (fitInt t sat (intOp op (intVal t a) (intVal t b) (intVal t c)), false)
  | some f =>
    let r := floatOp op (widen f a) (widen f b) (widen f c)
    (narrowTo f r, fisNan fmt32 r)

/-- R173, R177: an element converted from ETYPE `s` to type `t`, and whether a NaN was met on the way to a result. -/
def convElem (s t a : Nat) : Nat × Bool :=
  match etFmt s, etFmt t with
  | none, none => (fitInt t true (intVal s a), false)
  | none, some g => (fround g true (FV.ofInt (intVal s a)), false)
  | some f, some g => (fconv f g a, fisNan f a)
  | some f, none =>
    match fval f a with
    | .nan => (0, true)
    | .inf neg => (fitInt t true (if neg then -(2 ^ 40) else 2 ^ 40), false)
    | .fin neg m e => (fitInt t true ((FV.toIntRne (.fin neg m e)).getD 0), false)

/-- An element as the vector unit holds it: its code and its poison. -/
abbrev Elem := Nat × Bool

/-- A row of an operand as elements of `sz` bytes: `n` elements, of which those whose lane is enabled are read; the others are
zero. `per` elements share a lane. -/
def readElems (b : Bus) (a sz n per : Nat) (lo hi : Nat) : List Elem × Bool :=
  let g := b.fetch (a + sz * (per * lo)) (sz * (per * (hi - lo)))
  (tab n (fun i =>
    if per * lo ≤ i ∧ i < per * hi then
      (fld g.bytes (sz * (i - per * lo)) sz, g.poisoned && b.tainted (a + sz * i) sz)
    else (0, false)), g.busErr)

/-- What a vector step has done so far. -/
structure Vec where
  bus : Bus
  nans : Nat := 0
  read : Bool := false
  busErr : Bool := false
  landed : Landed := .done
  deriving DecidableEq, Repr

/-- The row of results written through operand `i` at `a`, elements of `sz` bytes, [lo, hi) of them. -/
def writeElems (e : StepEnv) (v : Vec) (i a sz lo hi : Nat) (els : List Elem) : Vec :=
  let w := stepWriteEls e v.bus i (a + sz * lo) sz (((els.drop lo).take (hi - lo)).map (fun x => (leBytes sz x.1, x.2)))
  { v with bus := w.1, landed := v.landed.and w.2 }

/-- The lanes of a row that a predicate byte enables. -/
def laneRun (pred : Nat) (e : StepEnv) : Nat × Nat := predRun pred e.dims 64

/-- R176, R130: the ranges of `n` rows of 256 bytes (4 bytes a lane) of operand `i` under a predicate. -/
def rowRanges (e : StepEnv) (i pred n width : Nat) : List (Nat × Nat) :=
  let r := laneRun pred e
  tab n (fun k => (8 * (e.d.opnd i).rowStride * k + width * r.1, width * (r.2 - r.1)))

/-- R130, R176: the ranges of `n` bytes laid out in rows of 256 that a predicate's lanes of four bytes enable. -/
def byteRanges (e : StepEnv) (pred n : Nat) : List (Nat × Nat) :=
  let r := laneRun pred e
  tab (ceilDiv n 256) (fun k => (256 * k + 4 * r.1, Nat.min (4 * (r.2 - r.1)) (n - (256 * k + 4 * r.1))))

/-- The bytes of a source operand laid out in rows of 256, those of masked lanes zero, with the poison met and a refused read. -/
def readMasked (e : StepEnv) (b : Bus) (a pred n : Nat) : Got :=
  (byteRanges e pred n).foldl (fun (q : Got) x =>
    let g := b.fetch (a + x.1) x.2
    { bytes := q.bytes.take x.1 ++ g.bytes ++ q.bytes.drop (x.1 + x.2), poisoned := q.poisoned || g.poisoned, busErr := q.busErr || g.busErr })
    { bytes := zeros n, poisoned := false, busErr := false }

/-- The bytes of a destination operand laid out in rows of 256 written where their lanes are enabled. -/
def writeMasked (e : StepEnv) (b : Bus) (i a pred : Nat) (bs : List Byte) (bad : Bool) : Bus × Landed :=
  (byteRanges e pred bs.length).foldl (fun (q : Bus × Landed) x =>
    let w := stepWrite e q.1 i (a + x.1) ((bs.drop x.1).take x.2) bad
    (w.1, q.2.and w.2)) (b, .done)

/-- A vector step's end: counts, status and fault codes. -/
def vecDone (i : Nat) (s : State) (v : Vec) (dyn : StepDyn) (e : StepEnv) : Done :=
  let b := countDyn s v.bus i e.x.entry.strict dyn
  let b := b.inc (stnB i + 0x104)
  let b := if v.nans = 0 then b else (b.bump (stnB i + 0x130) v.nans).raise (stnB i) 29
  { s := { s with bus := b }
    codes := (if conflictHit e dyn then [0x10] else []) ++ (if v.read then [0x11] else [])
      ++ (if v.busErr then [0x08] else v.landed.codes) }

/-- R176, R177: ADD, SUB, MUL, MAX, MIN and MULADD, row by row. -/
def elementwise (i : Nat) (dyn : StepDyn) (e : StepEnv) (s : State) : Done :=
  let s := s.taint e.u ⟨e.x.frame % 2, Nat.mod_lt _ (by decide)⟩ (conflictHit e dyn)
  let t := vecType e.d
  let sz := etSize t
  let per := 4 / sz
  let sr := laneRun e.d.predRow e
  let dr := laneRun e.d.predCol e
  let n := 64 * per
  let v := (tab (e.dim 0) id).foldl (fun (v : Vec) r =>
    let x := readElems v.bus (e.row 0 r) sz n per sr.1 sr.2
    let y := readElems v.bus (e.row 1 r) sz n per sr.1 sr.2
    let z := if vecOp e.d = 0x06 then readElems v.bus (e.row 2 r) sz n per dr.1 dr.2 else (tab n (fun _ => (0, false)), false)
    let out := tab n (fun k =>
      let a := x.1.getD k (0, false)
      let b := y.1.getD k (0, false)
      let c := z.1.getD k (0, false)
      let o := elemOp (vecOp e.d) t (bit (vecMod e.d) 0) a.1 b.1 c.1
      (o.1, a.2 || b.2 || c.2, o.2))
    let hit := (out.drop (per * dr.1)).take (per * (dr.2 - dr.1))
    let v := { v with
      busErr := v.busErr || x.2 || y.2 || z.2
      read := v.read || x.1.any (·.2) || y.1.any (·.2) || z.1.any (·.2)
      nans := v.nans + lsum (hit.map (fun o => b2n o.2.2)) }
    writeElems (e.atRow dyn r) v 2 (e.row 2 r) sz (per * dr.1) (per * dr.2) (out.map (fun o => (o.1, o.2.1)))) { bus := s.bus }
  vecDone i s v dyn e

/-- R176: the accesses of the element-wise operations. -/
def elementwiseAccs (e : StepEnv) : List Acc :=
  [wideAcc 0 false (rowRanges e 0 e.d.predRow (e.dim 0) 4), wideAcc 1 false (rowRanges e 1 e.d.predRow (e.dim 0) 4),
   wideAcc 2 true (rowRanges e 2 e.d.predCol (e.dim 0) 4)]

/-- A vector unit operation of VOP code `op`. -/
def vecUnit (op : Nat) (pre : StepEnv → List Nat) (accs : StepEnv → List Acc) (eff : StepEnv → State → Done) : UnitOp :=
  { sel := fun d => d.unit = 2 && vecOp d = op
    pre := fun e _ => pre e
    accs := fun e _ => accs e
    eff := eff }

/-- R176 CVT: 64 elements a row, from ETYPE to type MOD. -/
def cvtEffect (i : Nat) (dyn : StepDyn) (e : StepEnv) (s : State) : Done :=
  let s := s.taint e.u ⟨e.x.frame % 2, Nat.mod_lt _ (by decide)⟩ (conflictHit e dyn)
  let t := vecType e.d
  let u := vecMod e.d
  let sr := laneRun e.d.predRow e
  let dr := laneRun e.d.predCol e
  let v := (tab (e.dim 0) id).foldl (fun (v : Vec) r =>
    let x := readElems v.bus (e.row 0 r) (etSize t) 64 1 sr.1 sr.2
    let out := x.1.map (fun a => (convElem t u a.1, a.2))
    let hit := (out.drop dr.1).take (dr.2 - dr.1)
    let v := { v with
      busErr := v.busErr || x.2
      read := v.read || x.1.any (·.2)
      nans := v.nans + lsum (hit.map (fun o => b2n o.1.2)) }
    writeElems (e.atRow dyn r) v 2 (e.row 2 r) (etSize u) dr.1 dr.2 (out.map (fun o => (o.1.1, o.2)))) { bus := s.bus }
  vecDone i s v dyn e

/-- R176: the accesses of CVT. -/
def cvtAccs (e : StepEnv) : List Acc :=
  [wideAcc 0 false (rowRanges e 0 e.d.predRow (e.dim 0) (etSize (vecType e.d))),
   wideAcc 2 true (rowRanges e 2 e.d.predCol (e.dim 0) (etSize (vecMod e.d)))]

-- TAB (R178) ---------------------------------------------------------------------------------------------------------------

/-- R178: the segment of an FP32 input, the table given as 512 words; none where the input, or its place, is a NaN. -/
def tabSegment (table : List Word) (x : Nat) : Option Nat :=
  let w (k : Nat) : Nat := (table.getD k 0).toNat
  if fisNan fmt32 x then none
  else
    match fval fmt32 (fmul fmt32 (fsub fmt32 x (w 0)) (w 1)) with
    | .nan => none
    | .inf neg => some (if neg then 1 else 255)
    | .fin n m e =>
      let j := ((FV.fin n m e).toIntFloor).getD 0
      some (1 + (if j < 0 then 0 else if 254 < j then 254 else j.toNat))

/-- R178: the table's value for an FP32 input. -/
def tabValue (table : List Word) (x : Nat) : Nat :=
  let w (k : Nat) : Nat := (table.getD k 0).toNat
  match tabSegment table x with
  | none => fmt32.nan
  | some k => fround fmt32 false (((fval fmt32 (w (2 * k))).mul (fval fmt32 x)).add (fval fmt32 (w (2 * k + 1))))

/-- R177, R178: whether an input's value is computed from a poisoned word of the table: pair 0 unless it is a NaN, and its segment's. -/
def tabBad (table : List Word) (bad : List Nat) (x : Nat) : Bool :=
  !(fisNan fmt32 x) && ((0 :: (tabSegment table x).toList).any (fun k => bad.contains (2 * k) || bad.contains (2 * k + 1)))

/-- R178: the table of the step is the one V24 to V31 hold. -/
def tabKept (e : StepEnv) (x : Stn) : Bool := x.tabKey = some (e.x.task, e.x.frame, e.base 1)

/-- R178: the table loaded, its tag and address set; with whether its read was refused, and whether it met poison. -/
def loadTable (i : Nat) (e : StepEnv) (s : State) : State × Bool × Bool :=
  let x := s.stn i
  if tabKept e x then (s, false, false)
  else
    let g := s.bus.fetch (e.base 1) 2048
    let x := { x with
      tabData := tab 512 (fun k => BitVec.ofNat 32 (fld g.bytes (4 * k) 4))
      tabKey := some (e.x.task, e.x.frame, e.base 1)
      tabPoison := if g.poisoned then (tab 512 id).filter (fun k => s.bus.tainted (e.base 1 + 4 * k) 4) else [] }
    let b := s.bus.inc (stnB i + 0x114)
    let b := (b.setReg (stnB i + 0x0C) (2 ^ 31 + e.x.task % 1024 * 65536 + e.x.frame % 65536)).setReg64 (stnB i + 0x10)
      (e.base 1 % 2 ^ 40)
    (({ s with bus := b }).setStn i x, g.busErr, g.poisoned)

/-- R178: TAB. -/
def tabEffect (i : Nat) (dyn : StepDyn) (e : StepEnv) (s : State) : Done :=
  let s := s.taint e.u ⟨e.x.frame % 2, Nat.mod_lt _ (by decide)⟩ (conflictHit e dyn)
  let l := loadTable i e s
  let s := l.1
  let x := s.stn i
  let t := vecType e.d
  let f := if t = 5 then fmtBF16 else fmt32
  let sz := etSize t
  let per := 4 / sz
  let n := 64 * per
  let sr := laneRun e.d.predRow e
  let dr := laneRun e.d.predCol e
  let v := (tab (e.dim 0) id).foldl (fun (v : Vec) r =>
    let a := readElems v.bus (e.row 0 r) sz n per sr.1 sr.2
    let out := a.1.map (fun y =>
      let z := tabValue x.tabData (widen f y.1)
      (narrowTo f z, y.2 || tabBad x.tabData x.tabPoison (widen f y.1), fisNan fmt32 z))
    let hit := (out.drop (per * dr.1)).take (per * (dr.2 - dr.1))
    let v := { v with
      busErr := v.busErr || a.2
      read := v.read || a.1.any (·.2) || hit.any (·.2.1)
      nans := v.nans + lsum (hit.map (fun o => b2n o.2.2)) }
    writeElems (e.atRow dyn r) v 2 (e.row 2 r) sz (per * dr.1) (per * dr.2) (out.map (fun o => (o.1, o.2.1))))
      { bus := s.bus, busErr := l.2.1, read := l.2.2 }
  vecDone i s v dyn e

/-- R178: the accesses of TAB; a table that is held is not read. -/
def tabAccs (e : StepEnv) (x : Stn) : List Acc :=
  [wideAcc 0 false (rowRanges e 0 e.d.predRow (e.dim 0) 4)]
    ++ (if tabKept e x then [] else [wideAcc 1 false [(0, 2048)]])
    ++ [wideAcc 2 true (rowRanges e 2 e.d.predCol (e.dim 0) 4)]

-- Reductions ----------------------------------------------------------------------------------------------------------------

/-- R176, R177: one step of RSUM or RMAX over an accumulated element, in INT32 or FP32. -/
def reduceStep (isMax : Bool) (t : Nat) (sat : Bool) (acc a : Nat) : Nat :=
  match etFmt t with
  | none =>
    let x := sext 32 acc
    let y := intVal t a
    if isMax then toU 32 (if x < y then y else x) else fitInt 2 sat (x + y)
  | some f => if isMax then maxMin true acc (widen f a) else fadd fmt32 acc (widen f a)

/-- R177: the first row's element as an accumulated value. -/
def reduceInit (t a : Nat) : Nat :=
  match etFmt t with
  | none => toU 32 (intVal t a)
  | some f => widen f a

/-- R177: an accumulated value fitted to ETYPE. -/
def reduceEnd (t : Nat) (sat : Bool) (acc : Nat) : Nat × Bool :=
  match etFmt t with
  | none => (fitInt t sat (sext 32 acc), false)
  | some f => (narrowTo f acc, fisNan fmt32 acc)

/-- R176 RSUM and RMAX: one row from DIM0 rows, in row order. -/
def reduceEffect (isMax : Bool) (i : Nat) (dyn : StepDyn) (e : StepEnv) (s : State) : Done :=
  let s := s.taint e.u ⟨e.x.frame % 2, Nat.mod_lt _ (by decide)⟩ (conflictHit e dyn)
  let t := vecType e.d
  let sat := bit (vecMod e.d) 0
  let sz := etSize t
  let per := 4 / sz
  let n := 64 * per
  let sr := laneRun e.d.predRow e
  let dr := laneRun e.d.predCol e
  let first := readElems s.bus (e.row 0 0) sz n per sr.1 sr.2
  let r := (tab (e.dim 0 - 1) (· + 1)).foldl (fun (q : List Elem × Bool) r =>
      let a := readElems s.bus (e.row 0 r) sz n per sr.1 sr.2
      (tab n (fun k => (reduceStep isMax t sat (q.1.getD k (0, false)).1 (a.1.getD k (0, false)).1,
          (q.1.getD k (0, false)).2 || (a.1.getD k (0, false)).2)), q.2 || a.2))
    (first.1.map (fun x => (reduceInit t x.1, x.2)), first.2)
  let out := r.1.map (fun x => (reduceEnd t sat x.1, x.2))
  let hit := (out.drop (per * dr.1)).take (per * (dr.2 - dr.1))
  let v : Vec := { bus := s.bus, busErr := r.2, read := r.1.any (·.2), nans := lsum (hit.map (fun o => b2n o.1.2)) }
  vecDone i s (writeElems (e.atRow dyn 0) v 2 (e.row 2 0) sz (per * dr.1) (per * dr.2) (out.map (fun o => (o.1.1, o.2)))) dyn e

/-- R176: the accesses of RSUM and RMAX. -/
def reduceAccs (e : StepEnv) : List Acc :=
  [wideAcc 0 false (rowRanges e 0 e.d.predRow (e.dim 0) 4), wideAcc 2 true (rowRanges e 2 e.d.predCol 1 4)]

/-- R176 LSUM: adjacent pairs added, lane 2i with 2i + 1 first, until one remains. -/
def pairUp (f : Elem → Elem → Elem) : List Elem → List Elem
  | a :: b :: t => f a b :: pairUp f t
  | l => l

/-- The pairwise tree over 64 lanes. -/
def lanesSum (t : Nat) (sat : Bool) (l : List Elem) : Elem :=
  let f (a b : Elem) : Elem :=
    (if t = 2 then fitInt 2 sat (sext 32 a.1 + sext 32 b.1) else fadd fmt32 a.1 b.1, a.2 || b.2)
  (pairUp f (pairUp f (pairUp f (pairUp f (pairUp f (pairUp f l)))))).headD (0, false)

/-- R176 LSUM: word r of OPND2 is the sum of row r's lanes; its destination lane is r mod 64 (R130). -/
def lsumEffect (i : Nat) (dyn : StepDyn) (e : StepEnv) (s : State) : Done :=
  let s := s.taint e.u ⟨e.x.frame % 2, Nat.mod_lt _ (by decide)⟩ (conflictHit e dyn)
  let t := vecType e.d
  let sr := laneRun e.d.predRow e
  let rows := tab (e.dim 0) (fun r => readElems s.bus (e.row 0 r) 4 64 1 sr.1 sr.2)
  let out := rows.map (fun x => lanesSum t (bit (vecMod e.d) 0) x.1)
  let hit := out.zipIdx.filter (fun o => predOn e.d.predCol e.dims (o.2 % 64))
  let nans := if t = 6 then lsum (hit.map (fun o => b2n (fisNan fmt32 o.1.1))) else 0
  let v : Vec := { bus := s.bus, busErr := rows.any (·.2), read := rows.any (fun x => x.1.any (·.2)), nans := nans }
  let v := (byteRanges e e.d.predCol (4 * e.dim 0)).foldl (fun v x =>
    writeElems (e.atRow dyn 0) v 2 (e.base 2) 4 (x.1 / 4) ((x.1 + x.2) / 4) out) v
  vecDone i s v dyn e

/-- R176: the accesses of LSUM. -/
def lsumAccs (e : StepEnv) : List Acc :=
  [wideAcc 0 false (rowRanges e 0 e.d.predRow (e.dim 0) 4), wideAcc 2 true (byteRanges e e.d.predCol (4 * e.dim 0))]

/-- R176 PERM: OPND2 lane j = OPND0 lane (byte j of OPND1)[5:0]. -/
def permEffect (i : Nat) (dyn : StepDyn) (e : StepEnv) (s : State) : Done :=
  let s := s.taint e.u ⟨e.x.frame % 2, Nat.mod_lt _ (by decide)⟩ (conflictHit e dyn)
  let sr := laneRun e.d.predRow e
  let dr := laneRun e.d.predCol e
  let v := (tab (e.dim 0) id).foldl (fun (v : Vec) r =>
    let x := readElems v.bus (e.row 0 r) 4 64 1 sr.1 sr.2
    let y := readElems v.bus (e.row 1 r) 1 64 1 0 64
    let out := y.1.map (fun k => ((x.1.getD (k.1 % 64) (0, false)).1, (x.1.getD (k.1 % 64) (0, false)).2 || k.2))
    let v := { v with busErr := v.busErr || x.2 || y.2, read := v.read || x.1.any (·.2) || y.1.any (·.2) }
    writeElems (e.atRow dyn r) v 2 (e.row 2 r) 4 dr.1 dr.2 out) { bus := s.bus }
  vecDone i s v dyn e

/-- R176: the accesses of PERM. -/
def permAccs (e : StepEnv) : List Acc :=
  [wideAcc 0 false (rowRanges e 0 e.d.predRow (e.dim 0) 4),
   wideAcc 1 false (tab (e.dim 0) (fun r => (8 * (e.d.opnd 1).rowStride * r, 64))),
   wideAcc 2 true (rowRanges e 2 e.d.predCol (e.dim 0) 4)]

-- SORT and MERGE (R179) -------------------------------------------------------------------------------------------------------

/-- R179: a record: key and index. -/
abbrev Rec := Nat × Nat

/-- R179: descending key, then ascending index. -/
def recLe (a b : Rec) : Bool := decide (b.1 < a.1) || (decide (a.1 = b.1) && decide (a.2 ≤ b.2))

/-- The records in `bs`. -/
def decodeRecs (bs : List Byte) : List Rec := tab (bs.length / 8) (fun i => (fld bs (8 * i) 4, fld bs (8 * i + 4) 4))

/-- Records as bytes. -/
def encodeRecs (l : List Rec) : List Byte := (l.map (fun r => leBytes 4 r.1 ++ leBytes 4 r.2)).flatten

/-- Whether a run is in the order of R179. -/
def recSorted : List Rec → Bool
  | a :: b :: t => recLe a b && recSorted (b :: t)
  | _ => true

/-- R175: SORT and MERGE use every register and invalidate the table. -/
def dropTable (i : Nat) (s : State) : State :=
  (s.setStn i { s.stn i with tabKey := none, tabPoison := [] }).onBus (fun b => b.setFlag (stnB i + 0x0C) 31 false)

/-- R179 SORT. -/
def sortEffect (i : Nat) (dyn : StepDyn) (e : StepEnv) (s : State) : Done :=
  let s := s.taint e.u ⟨e.x.frame % 2, Nat.mod_lt _ (by decide)⟩ (conflictHit e dyn)
  let s := dropTable i s
  let g := readMasked e s.bus (e.base 0) e.d.predRow (8 * e.dim 0)
  let out := encodeRecs (sortBy recLe (decodeRecs g.bytes))
  let w := writeMasked e s.bus 2 (e.base 2) e.d.predCol out (g.poisoned || (e.atRow dyn 0).x.taint)
  vecDone i s { bus := w.1, landed := w.2, read := g.poisoned, busErr := g.busErr } dyn e

/-- R179 MERGE: two runs in order make one; for runs that are not in order the result is open. -/
def mergeEffect (i : Nat) (dyn : StepDyn) (e : StepEnv) (s : State) : Done :=
  let s := s.taint e.u ⟨e.x.frame % 2, Nat.mod_lt _ (by decide)⟩ (conflictHit e dyn)
  let s := dropTable i s
  let g := readMasked e s.bus (e.base 0) e.d.predRow (8 * e.dim 0)
  let h := readMasked e s.bus (e.base 1) e.d.predRow (8 * e.dim 1)
  let x := decodeRecs g.bytes
  let y := decodeRecs h.bytes
  let bad := g.poisoned || h.poisoned
  let r := if recSorted x && recSorted y then (encodeRecs (sortBy recLe (x ++ y)), s.bus)
    else s.bus.freshN (8 * (e.dim 0 + e.dim 1))
  let w := writeMasked e r.2 2 (e.base 2) e.d.predCol r.1 (bad || (e.atRow dyn 0).x.taint)
  vecDone i s { bus := w.1, landed := w.2, read := bad, busErr := g.busErr || h.busErr } dyn e

-- The meanings ----------------------------------------------------------------------------------------------------------------

/-- R176 ADD: what the step does. -/
def opAdd (i : Fin 32) (dyn : StepDyn) : UnitOp :=
  vecUnit 0x01 (fun _ => []) elementwiseAccs (elementwise i.val dyn)

/-- R176 ADD. -/
def runAdd (i : Fin 32) (p : Fin 2) (dyn : StepDyn) (s : State) : Host.Outcome State Fault Refusal :=
  .next (runStep (.stn i) p (opAdd i dyn) s)

/-- R176 SUB: what the step does. -/
def opSub (i : Fin 32) (dyn : StepDyn) : UnitOp :=
  vecUnit 0x02 (fun _ => []) elementwiseAccs (elementwise i.val dyn)

/-- R176 SUB. -/
def runSub (i : Fin 32) (p : Fin 2) (dyn : StepDyn) (s : State) : Host.Outcome State Fault Refusal :=
  .next (runStep (.stn i) p (opSub i dyn) s)

/-- R176 MUL: what the step does. -/
def opMul (i : Fin 32) (dyn : StepDyn) : UnitOp :=
  vecUnit 0x03 (fun _ => []) elementwiseAccs (elementwise i.val dyn)

/-- R176 MUL. -/
def runMul (i : Fin 32) (p : Fin 2) (dyn : StepDyn) (s : State) : Host.Outcome State Fault Refusal :=
  .next (runStep (.stn i) p (opMul i dyn) s)

/-- R176 MAX: what the step does. -/
def opMax (i : Fin 32) (dyn : StepDyn) : UnitOp :=
  vecUnit 0x04 (fun _ => []) elementwiseAccs (elementwise i.val dyn)

/-- R176 MAX. -/
def runMax (i : Fin 32) (p : Fin 2) (dyn : StepDyn) (s : State) : Host.Outcome State Fault Refusal :=
  .next (runStep (.stn i) p (opMax i dyn) s)

/-- R176 MIN: what the step does. -/
def opMin (i : Fin 32) (dyn : StepDyn) : UnitOp :=
  vecUnit 0x05 (fun _ => []) elementwiseAccs (elementwise i.val dyn)

/-- R176 MIN. -/
def runMin (i : Fin 32) (p : Fin 2) (dyn : StepDyn) (s : State) : Host.Outcome State Fault Refusal :=
  .next (runStep (.stn i) p (opMin i dyn) s)

/-- R176 MULADD: what the step does. -/
def opMuladd (i : Fin 32) (dyn : StepDyn) : UnitOp :=
  vecUnit 0x06 (fun _ => [])
    (fun e => elementwiseAccs e ++ [wideAcc 2 false (rowRanges e 2 e.d.predCol (e.dim 0) 4)]) (elementwise i.val dyn)

/-- R176 MULADD. -/
def runMuladd (i : Fin 32) (p : Fin 2) (dyn : StepDyn) (s : State) : Host.Outcome State Fault Refusal :=
  .next (runStep (.stn i) p (opMuladd i dyn) s)

/-- R176 CVT: what the step does. -/
def opCvt (i : Fin 32) (dyn : StepDyn) : UnitOp :=
  vecUnit 0x08 (fun _ => []) cvtAccs (cvtEffect i.val dyn)

/-- R176 CVT. -/
def runCvt (i : Fin 32) (p : Fin 2) (dyn : StepDyn) (s : State) : Host.Outcome State Fault Refusal :=
  .next (runStep (.stn i) p (opCvt i dyn) s)

/-- R178 TAB: what the step does. -/
def opTab (i : Fin 32) (dyn : StepDyn) : UnitOp :=
  { sel := fun d => d.unit = 2 && vecOp d = 0x0A
    accs := fun e s => tabAccs e (s.stn i.val)
    eff := tabEffect i.val dyn }

/-- R178 TAB. -/
def runTab (i : Fin 32) (p : Fin 2) (dyn : StepDyn) (s : State) : Host.Outcome State Fault Refusal :=
  .next (runStep (.stn i) p (opTab i dyn) s)

/-- R176 RSUM: what the step does. -/
def opRsum (i : Fin 32) (dyn : StepDyn) : UnitOp :=
  vecUnit 0x10 (fun _ => []) reduceAccs (reduceEffect false i.val dyn)

/-- R176 RSUM. -/
def runRsum (i : Fin 32) (p : Fin 2) (dyn : StepDyn) (s : State) : Host.Outcome State Fault Refusal :=
  .next (runStep (.stn i) p (opRsum i dyn) s)

/-- R176 RMAX: what the step does. -/
def opRmax (i : Fin 32) (dyn : StepDyn) : UnitOp :=
  vecUnit 0x11 (fun _ => []) reduceAccs (reduceEffect true i.val dyn)

/-- R176 RMAX. -/
def runRmax (i : Fin 32) (p : Fin 2) (dyn : StepDyn) (s : State) : Host.Outcome State Fault Refusal :=
  .next (runStep (.stn i) p (opRmax i dyn) s)

/-- R176 LSUM: what the step does. -/
def opLsum (i : Fin 32) (dyn : StepDyn) : UnitOp :=
  vecUnit 0x12 (fun _ => []) lsumAccs (lsumEffect i.val dyn)

/-- R176 LSUM. -/
def runLsum (i : Fin 32) (p : Fin 2) (dyn : StepDyn) (s : State) : Host.Outcome State Fault Refusal :=
  .next (runStep (.stn i) p (opLsum i dyn) s)

/-- R176 PERM: what the step does. -/
def opPerm (i : Fin 32) (dyn : StepDyn) : UnitOp :=
  vecUnit 0x18 (fun _ => []) permAccs (permEffect i.val dyn)

/-- R176 PERM. -/
def runPerm (i : Fin 32) (p : Fin 2) (dyn : StepDyn) (s : State) : Host.Outcome State Fault Refusal :=
  .next (runStep (.stn i) p (opPerm i dyn) s)

/-- R179 SORT: what the step does. -/
def opSort (i : Fin 32) (dyn : StepDyn) : UnitOp :=
  vecUnit 0x20 (fun e => if 1024 < e.dim 0 then [0x0B] else [])
    (fun e => [wideAcc 0 false (byteRanges e e.d.predRow (8 * e.dim 0)), wideAcc 2 true (byteRanges e e.d.predCol (8 * e.dim 0))])
    (sortEffect i.val dyn)

/-- R179 SORT: 1 to 1,024 records. -/
def runSort (i : Fin 32) (p : Fin 2) (dyn : StepDyn) (s : State) : Host.Outcome State Fault Refusal :=
  .next (runStep (.stn i) p (opSort i dyn) s)

/-- R179 MERGE: what the step does. -/
def opMerge (i : Fin 32) (dyn : StepDyn) : UnitOp :=
  vecUnit 0x21 (fun e => if 512 < e.dim 0 ∨ 512 < e.dim 1 then [0x0B] else [])
    (fun e => [wideAcc 0 false (byteRanges e e.d.predRow (8 * e.dim 0)), wideAcc 1 false (byteRanges e e.d.predRow (8 * e.dim 1)),
      wideAcc 2 true (byteRanges e e.d.predCol (8 * (e.dim 0 + e.dim 1)))]) (mergeEffect i.val dyn)

/-- R179 MERGE: two runs of at most 512 records each. -/
def runMerge (i : Fin 32) (p : Fin 2) (dyn : StepDyn) (s : State) : Host.Outcome State Fault Refusal :=
  .next (runStep (.stn i) p (opMerge i dyn) s)

end Sys2Proof.Machine
end

