-- ==== Sys2Proof/Machine/Load.lean ====
section
/-! DEFINITION. The field book: header, task table, region table and declarations decoded (R121 to R123), the load checks of R125 with
the step graph of R149, the kinds of the sync objects (R123), and LOAD, LOAD_DONE and CRC_PASS. -/

namespace Sys2Proof.Machine

-- Decoding --------------------------------------------------------------------------------------------------------------

/-- R122: a task table entry. -/
def decodeTask (bs : List Byte) : TaskEntry :=
  let u := fld bs 0x00 2
  let fl := fld bs 0x02 1
  let sh := fld bs 0x07 1
  let mon := fld bs 0x38 2
  let cnt := fld bs 0x3A 2
  { cls := bits u 15 12, inst := bits u 5 0, safety := bit fl 7, strict := bit fl 6, histLookup := bit fl 5,
    histWrite := bit fl 4, regionFirst := fld bs 0x04 2, regionCount := fld bs 0x06 1, record := bit sh 7,
    shapeSlot := bits sh 3 0, shapeOff := fld bs 0x08 4, admission := decodeWait (fld bs 0x0C 4),
    plan := tab 4 (fun i => fld bs (0x10 + 4 * i) 4), loadedMax := tab 4 (fun i => fld bs (0x20 + 2 * i) 2),
    stepOff := fld bs 0x28 4, stepCount := fld bs 0x2C 4, done := tab 4 (fun i => decodeSignal (fld bs (0x30 + 2 * i) 2)),
    monitorEn := bit mon 15, monitor := bits mon 8 0, countEn := bit cnt 15, countSlot := bits cnt 3 0,
    countOff := fld bs 0x3C 4 }

/-- R123: a sync declaration. -/
def decodeDecl (bs : List Byte) : Decl :=
  let o := fld bs 0 2
  { credit := bit o 15, parity := bit o 14, object := bits o 13 0, advTask := fld bs 2 2, advDim := fld bs 4 1,
    advShift := fld bs 5 1, advConst := fld bs 6 2 }

/-- R121: the header as it stands in memory. -/
structure BookHead where
  magic : Nat
  version : Nat
  tasks : Nat
  length : Nat
  crc : Nat
  taskOff : Nat
  regionOff : Nat
  declOff : Nat
  decls : Nat
  regions : Nat
  periodMin : Nat
  periodMax : Nat
  syncFirst : Nat
  syncCount : Nat
  lstns : Nat
  deriving DecidableEq, Repr

/-- R121. -/
def decodeHead (bs : List Byte) : BookHead :=
  { magic := fld bs 0x00 4, version := fld bs 0x04 2, tasks := fld bs 0x06 2, length := fld bs 0x08 4, crc := fld bs 0x0C 4,
    taskOff := fld bs 0x10 4, regionOff := fld bs 0x14 4, declOff := fld bs 0x18 4, decls := fld bs 0x1C 2,
    regions := fld bs 0x1E 2, periodMin := fld bs 0x20 4, periodMax := fld bs 0x24 4, syncFirst := fld bs 0x28 2,
    syncCount := fld bs 0x2A 2, lstns := fld bs 0x2C 1 }

/-- The bytes of the book from offset `off`. -/
def bookBytes (b : Bus) (off n : Nat) : List Byte := (b.fetch (b.reg64 (fseqB + 0x18) + off) n).bytes

/-- R121: the CRC of the book in memory, its CRC field taken as 0. -/
def bookCrc (b : Bus) (len : Nat) : Nat := crc32c (bookBytes b 0 12 ++ zeros 4 ++ bookBytes b 16 (len - 16))

/-- The book's tables as they stand in memory. -/
def readBook (b : Bus) (h : BookHead) : Book :=
  { crc := BitVec.ofNat 32 h.crc, periodMin := h.periodMin, periodMax := h.periodMax, syncFirst := h.syncFirst,
    syncCount := h.syncCount, length := h.length,
    tasks := tab h.tasks (fun i => decodeTask (bookBytes b (h.taskOff + 64 * i) 64)),
    regions := tab h.regions (fun i => decodeRegion (bookBytes b (h.regionOff + 16 * i) 16)),
    decls := tab h.decls (fun i => decodeDecl (bookBytes b (h.declOff + 8 * i) 8)) }

/-- R122: the slots of a task. -/
def Book.slots (k : Book) (t : TaskEntry) : List Region := (k.regions.drop t.regionFirst).take t.regionCount

/-- A step of a task as the load checks see it: its 64 bytes decoded, and whether it is an EXT (R133). -/
structure BookStep where
  d : StepD
  ext : Bool
  deriving DecidableEq, Repr

/-- The step list of a task. -/
def bookSteps (b : Bus) (t : TaskEntry) : List BookStep :=
  tab t.stepCount (fun i =>
    let bs := bookBytes b (t.stepOff + 64 * i) 64
    let n := if i + 1 < t.stepCount then bookBytes b (t.stepOff + 64 * (i + 1)) 64 else zeros 64
    { d := decodeStep bs n, ext := isExt bs })

-- Load checks (R125) ------------------------------------------------------------------------------------------------------

/-- R125 0x03. -/
def headBad (h : BookHead) : Bool :=
  decide (h.tasks = 0 ∨ 1024 < h.tasks ∨ 256 < h.decls ∨ 16384 < h.regions ∨ h.length % 64 ≠ 0 ∨ 64 * 2 ^ 20 < h.length
    ∨ h.length < h.taskOff + 64 * h.tasks ∨ h.length < h.regionOff + 16 * h.regions ∨ h.length < h.declOff + 8 * h.decls)

/-- R125 0x03: a task's slots or step list lie outside the book. -/
def taskOutside (k : Book) (t : TaskEntry) : Bool :=
  decide (16 < t.regionCount ∨ k.regions.length < t.regionFirst + t.regionCount ∨ t.stepCount = 0 ∨ 65536 < t.stepCount
    ∨ k.length < t.stepOff + 64 * t.stepCount)

/-- R125 0x04: the conditions of R100 that do not depend on the station map. -/
def Region.badAtLoad (b : Bus) (r : Region) : Bool :=
  r.badStatic || (r.wide && decide (r.base % 64 ≠ 0)) || (r.narrow && decide (r.base % 8 ≠ 0))
    || (!(r.isLocal || r.sliceRel)
        && (!(b.served r.base r.bytes)
            || (decide (0 < r.bytes) && (match b.place r.base with
                | .um => !(banksMatch b (b.localAddr r.base) r.bytes r.narrow)
                | _ => false))))

/-- R156, R201: an array step's operation is refused at load. -/
def arrayOpBad (d : StepD) : Bool :=
  decide (mmOp d ≠ 1 ∧ mmOp d ≠ 2) || decide (mmFmt d = 7) || (mmDrain d && decide (4 < mmOut d))
    || !(d.opnd 0).present || !(d.opnd 1).present || ((d.opnd 2).present != mmDrain d)
    || (mmQuant d && !(d.ext && (d.opnd 3).present)) || (decide (mmFmt d = 1) && mmPlane d)

/-- R176, R177: the ETYPEs of a vector operation; none where the code is unassigned. -/
def vecTypes (vop : Nat) : List Nat :=
  match vop with
  | 0x01 | 0x02 | 0x03 | 0x04 | 0x05 | 0x06 | 0x08 | 0x10 | 0x11 => [0, 1, 2, 3, 4, 5, 6]
  | 0x0A => [5, 6]
  | 0x12 | 0x18 => [2, 6]
  | 0x20 | 0x21 => [2]
  | _ => []

/-- R176, R177: a vector step's operation is refused at load. -/
def vectorOpBad (d : StepD) : Bool :=
  !((vecTypes (vecOp d)).contains (vecType d))
    || (if vecOp d = 0x08 then decide (6 < vecMod d)
        else if (etFmt (vecType d)).isSome then decide (vecMod d ≠ 0) else decide (1 < vecMod d))

/-- R191: a GME step's operation is refused at load. -/
def gmeOpBad (d : StepD) : Bool :=
  match gmeOp d with
  | 0x01 => decide (2 < gmeType d ∨ gmeMode d ≠ 0)
  | 0x02 => decide (2 < gmeType d ∨ gmeMode d ≠ 0)
  | 0x03 => decide (2 < gmeType d ∨ 1 < gmeMode d)
  | 0x08 => decide (1 < gmeType d ∨ 1 < gmeMode d)
  | 0x09 => decide (1 < gmeType d ∨ 3 < gmeMode d)
  | 0x10 => decide (2 < gmeType d ∨ gmeMode d ≠ 0)
  | 0x11 => decide (2 < gmeType d ∨ gmeMode d % 4 = 3)
  | _ => true

/-- R227: a CRE step's operation is refused at load. -/
def creOpBad (d : StepD) : Bool :=
  match bits d.op 11 8 with
  | 1 => decide (d.op % 256 ≠ 0 ∨ d.sels.getD 1 0 ≠ 0 ∨ d.sels.getD 2 0 ≠ 0)
  | 2 => decide (bits d.op 7 6 = 3 ∨ bits d.op 5 4 = 3 ∨ bit d.op 2 = true ∨ d.sels.getD 1 0 ≠ 0)
  | _ => true

/-- R265: a DMA step's operation is refused at load. -/
def dmaOpBad (d : StepD) : Bool :=
  let o := bits d.op 11 8
  decide (o = 0 ∨ 6 < o ∨ bits d.op 7 6 = 3 ∨ ((o = 4 ∨ o = 5) ∧ bits d.op 5 2 = 0))

/-- R127, R133, R134, R186, R238: the operation codes of every UNIT. -/
def opBad (d : StepD) : Bool :=
  match d.unit with
  | 0 => decide (7 < d.op)
  | 1 => arrayOpBad d
  | 2 => vectorOpBad d
  | 3 => gmeOpBad d
  | 4 => decide (d.op = 0 ∨ 7 < d.op)
  | 5 => decide (d.op = 0 ∨ 4 < d.op)
  | 6 => decide (d.op = 0 ∨ 2 < d.op)
  | 7 => creOpBad d
  | 8 => decide (d.op = 0 ∨ 2 < d.op)
  | 9 => dmaOpBad d
  | _ => true

/-- R125 0x06: an instance that the device does not have; a station's LSTN is code 0x0A's. -/
def unitBad (t : TaskEntry) : Bool :=
  decide (7 < t.cls) || (decide (t.cls ≠ 0) && (physUnit t.cls t.inst 31).isNone)

/-- R127: the UNIT codes that a task's unit executes. -/
def classOps (cls : Nat) : List Nat :=
  match cls with
  | 0 => [0, 1, 2]
  | 1 => [0, 4]
  | 2 => [0, 3]
  | 3 => [0, 5]
  | 4 => [0, 9]
  | 5 => [0, 6]
  | 6 => [0, 7]
  | _ => [0, 8]

/-- R125 0x06, for one step of task number `n`. -/
def stepOpBad (t : TaskEntry) (n : Nat) (x : BookStep) : Bool :=
  !((classOps t.cls).contains x.d.unit) || opBad x.d || (!x.ext && decide (x.d.task ≠ n))

/-- R125 0x07, R133: the loop nesting after a step: the open loops, innermost first (true: a claim loop); none when it breaks. -/
def nest (st : Option (List Bool)) (x : BookStep) : Option (List Bool) :=
  match st with
  | none => none
  | some l =>
    if x.d.unit ≠ 0 then some l
    else
      match x.d.op with
      | 1 => if 2 ≤ l.length then none else some (false :: l)
      | 2 => match l with
        | false :: t => some t
        | _ => none
      | 3 => if 2 ≤ l.length then none else some (true :: l)
      | 4 => match l with
        | true :: t => some t
        | _ => none
      | _ => some l

/-- R125 0x07: the loops of a step list balance and nest to depth 2. -/
def loopsOk (l : List BookStep) : Bool := decide (l.foldl nest (some []) = some [])

/-- R131, R132: the objects that an entry names: both of a PARITY pair. -/
def entryObjs (parity : Bool) (o : Nat) : List Nat := if parity then [o, o + 1] else [o]

/-- R133: the entry whose object a CLAIM step claims, enabled or not; it is not signalled. -/
def BookStep.claims (x : BookStep) : List SignalEntry := if x.d.unit = 0 ∧ x.d.op = 3 then (x.d.signals.take 1).map ({ · with en := true }) else []

/-- The signal entries that a step signals. -/
def BookStep.signalled (x : BookStep) : List SignalEntry := (if x.d.unit = 0 ∧ x.d.op = 3 then x.d.signals.drop 1 else x.d.signals).filter (·.en)

/-- The objects named by the enabled waits and signals of a step. -/
def stepWaits (x : BookStep) : List Nat := ((x.d.waits.filter (·.en)).map (fun w => entryObjs w.parity w.object)).flatten
def stepSignals (x : BookStep) : List Nat := (x.signalled.map (fun w => entryObjs w.parity w.object)).flatten

/-- The objects that a step claims. -/
def stepClaimed (x : BookStep) : List Nat := (x.claims.map (fun w => entryObjs w.parity w.object)).flatten
def admitObjs (t : TaskEntry) : List Nat := if t.admission.en then entryObjs t.admission.parity t.admission.object else []
def doneObjs (t : TaskEntry) : List Nat := ((t.done.filter (·.en)).map (fun w => entryObjs w.parity w.object)).flatten
def declObjs (d : Decl) : List Nat := entryObjs d.parity d.object

/-- R125 0x09: an object outside the book's range. -/
def objOut (k : Book) (o : Nat) : Bool := decide (o < k.syncFirst ∨ k.syncFirst + k.syncCount ≤ o)

/-- Whether an object is declared as a ledger object, or the pair as a PARITY object (R123). -/
def Book.ledger (k : Book) (o : Nat) : Bool := k.decls.any (fun d => !d.parity && decide (d.object = o))
def Book.parity (k : Book) (o : Nat) : Bool := k.decls.any (fun d => d.parity && decide (d.object = o))

/-- R125 0x09: an enabled wait or signal entry, a step's or one in its form (ADMIT, DONE), against the declarations. -/
def waitBad (k : Book) (w : WaitEntry) : Bool :=
  w.en && ((decide (w.base = 1) && (w.parity || !(k.ledger w.object))) || (w.parity && !(k.parity w.object)))
def signalBad (k : Book) (w : SignalEntry) : Bool := w.en && w.parity && !(k.parity w.object)

/-- R125 0x09, for one step. -/
def stepObjBad (k : Book) (x : BookStep) : Bool :=
  (stepWaits x ++ stepClaimed x ++ stepSignals x).any (objOut k) || x.d.waits.any (waitBad k) || (x.claims ++ x.signalled).any (signalBad k)

/-- R125 0x09, for a task's ADMIT and DONE. -/
def taskObjBad (k : Book) (t : TaskEntry) : Bool :=
  (admitObjs t ++ doneObjs t).any (objOut k) || waitBad k t.admission || t.done.any (signalBad k)

/-- R125 0x09, for one declaration. -/
def declBad (k : Book) (d : Decl) : Bool :=
  (declObjs d).any (objOut k)
    || (if d.parity then decide (d.object % 2 ≠ 0 ∨ d.advTask ≠ 0 ∨ d.advDim ≠ 0 ∨ d.advShift ≠ 0 ∨ d.advConst ≠ 0)
        else decide ((d.advTask ≠ 0xFFFF ∧ k.tasks.length ≤ d.advTask) ∨ 3 < d.advDim ∨ 15 < d.advShift))

/-- R125 0x0C: a step uses a reserved SHAPE_SEL, PRED, BASE or kernel code. -/
def stepCodeBad (x : BookStep) : Bool :=
  let pb (p : Nat) : Bool := decide (bits p 7 6 = 3) || decide (bits p 1 0 = 3)
  !x.ext && (x.d.sels.any (fun s => decide (12 < s)) || pb x.d.predRow || pb x.d.predCol
    || (x.d.waits.filter (·.en)).any (fun w => decide (w.base = 3))
    || (decide (x.d.unit = 4) && (let w := x.d.dims.getD 2 0
        decide (bits w 5 4 = 3 ∨ bits w 3 2 = 3 ∨ bits w 1 0 = 3))))

-- The step graph (R149) ------------------------------------------------------------------------------------------------------

/-- A slot's range in the address map of the station map whose spare is 31; `n` is the task's station. -/
def slotRange (t : TaskEntry) (r : Region) : Nat × Nat :=
  let b := if r.isLocal then t.inst * 0x400000 + r.base else if r.sliceRel then r.lstn * 0x400000 + r.base else r.base
  (b, b + r.bytes)

/-- The slots through which a step writes. -/
def stepWriteSlots (k : Book) (t : TaskEntry) (x : BookStep) : List Region :=
  let sl := k.slots t
  (x.d.opnds.filter (fun o => o.present && o.write)).flatMap (fun o =>
    (if o.idxSrc = 7 then [o.slot, o.slot + 1] else [o.slot]).filterMap (fun i => sl[i]?))

/-- R149: the arrival objects of the REMOTE_FED regions that a step writes. -/
def stepArrivals (k : Book) (feds : List (Nat × Nat × Nat)) (t : TaskEntry) (x : BookStep) : List Nat :=
  (stepWriteSlots k t x).flatMap (fun r =>
    let a := slotRange t r
    feds.filterMap (fun f => if f.1 < a.2 ∧ a.1 < f.2.1 then some f.2.2 else none))

/-- The REMOTE_FED ranges of every task: start, end, arrival object. -/
def Book.feds (k : Book) : List (Nat × Nat × Nat) :=
  k.tasks.flatMap (fun t => (k.slots t).filterMap (fun r =>
    if r.remoteFed then (let a := slotRange t r
      some (a.1, a.2, r.sync)) else none))

/-- A task in the search for a cycle: the objects that each step still to come waits on and brings, those its admission waits on
and its DONE brings, and whether its first step has been reached. -/
structure GTask where
  unit : Nat × Nat
  admission : List Nat
  steps : List (List Nat × List Nat)
  done : List Nat
  deriving DecidableEq, Repr

/-- R149: waits and signals on CREDIT objects are left out. -/
def Book.credits (k : Book) : List Nat := (k.decls.filter (·.credit)).flatMap declObjs

/-- The graph of a book. -/
def bookGraph (b : Bus) (k : Book) : List GTask :=
  let cr := k.credits
  let feds := k.feds
  let keep (l : List Nat) : List Nat := l.filter (fun o => !(cr.contains o))
  k.tasks.map (fun t =>
    { unit := (t.cls, t.inst), admission := keep (admitObjs t), done := keep (doneObjs t),
      steps := (bookSteps b t).map (fun x => (keep (stepWaits x), keep (stepSignals x) ++ stepArrivals k feds t x)) })

/-- The steps and DONEs that still bring an object, by object. -/
def addAll (c : List (Nat × Nat)) (l : List Nat) : List (Nat × Nat) := l.foldl (fun c o => sset 0 c o (sget 0 c o + 1)) c
def dropAll (c : List (Nat × Nat)) (l : List Nat) : List (Nat × Nat) := l.foldl (fun c o => sset 0 c o (sget 0 c o - 1)) c

/-- R149: the steps at the front of a list whose every incoming edge has been served are taken. -/
def takeSteps (c : List (Nat × Nat)) : List (List Nat × List Nat) → List (Nat × Nat) × List (List Nat × List Nat)
  | [] => (c, [])
  | (w, g) :: r => if w.all (fun o => decide (sget 0 c o = 0)) then takeSteps (dropAll c g) r else (c, (w, g) :: r)

/-- One pass over the tasks still unfinished, in table order: `busy` holds the units of earlier unfinished tasks. -/
def graphPass (c : List (Nat × Nat)) (busy : List (Nat × Nat)) : List GTask → List (Nat × Nat) × List GTask
  | [] => (c, [])
  | t :: ts =>
    if busy.contains t.unit || t.admission.any (fun o => decide (sget 0 c o ≠ 0)) then
      let r := graphPass c (t.unit :: busy) ts
      (r.1, t :: r.2)
    else
      let x := takeSteps c t.steps
      if x.2 = [] then graphPass (dropAll x.1 t.done) busy ts
      else
        let r := graphPass x.1 (t.unit :: busy) ts
        (r.1, { t with steps := x.2, admission := [] } :: r.2)

/-- R149: passes until all is taken (no cycle) or a pass takes nothing (a cycle). -/
def acyclicFrom : Nat → List (Nat × Nat) → List GTask → Bool
  | _, _, [] => true
  | 0, _, _ => false
  | f + 1, c, ts =>
    let r := graphPass c [] ts
    if r.2 = ts then false else acyclicFrom f r.1 r.2

/-- R149: the step graph has no cycle. -/
def acyclic (g : List GTask) : Bool :=
  let c := g.foldl (fun c t => addAll (t.steps.foldl (fun c s => addAll c s.2) c) t.done) []
  acyclicFrom (lsum (g.map (fun t => t.steps.length)) + g.length + 1) c g

/-- R125: the first failing check's code, 0 where the book loads. -/
def loadCode (b : Bus) : Nat :=
  let at' := b.reg64 (fseqB + 0x18)
  let g := b.fetch at' 64
  let h := decodeHead g.bytes
  if g.busErr ∨ h.magic ≠ 0x34424651 ∨ h.version / 256 ≠ 4 then 0x01
  else if (b.fetch at' h.length).busErr ∨ bookCrc b h.length ≠ h.crc then 0x02
  else if headBad h then 0x03
  else
    let k := readBook b h
    let numbered := k.tasks.zipIdx
    if k.tasks.any (taskOutside k) then 0x03
    else if k.tasks.any (fun t => (k.slots t).any (·.badAtLoad b)) then 0x04
    else if k.tasks.any (fun t => t.safety && !t.strict) then 0x05
    else if numbered.any (fun t => unitBad t.1 || (bookSteps b t.1).any (stepOpBad t.1 t.2)) then 0x06
    else if k.tasks.any (fun t => !(loopsOk (bookSteps b t))) then 0x07
    else if !(acyclic (bookGraph b k)) then 0x08
    else if k.tasks.any (fun t => taskObjBad k t || (bookSteps b t).any (stepObjBad k))
        || k.decls.any (declBad k) then 0x09
    else if decide (h.lstns ≠ 31) || k.tasks.any (fun t => decide (t.cls = 0 ∧ 30 < t.inst)) then 0x0A
    else if decide (b.reg (fseqB + 0x0C) < h.periodMin ∨ h.periodMax < b.reg (fseqB + 0x0C)) then 0x0B
    else if k.tasks.any (fun t => (t.admission.en && decide (t.admission.base = 3)) || (bookSteps b t).any stepCodeBad) then 0x0C
    else 0

-- Kinds and booked channels ----------------------------------------------------------------------------------------------------

/-- R107, R133: the objects that a task's CLAIM steps name. -/
def claimObjs (b : Bus) (t : TaskEntry) : List Nat :=
  (bookSteps b t).flatMap stepClaimed

/-- The (task, object) pairs of every CLAIM. -/
def Book.withClaims (k : Book) (b : Bus) : Book :=
  { k with claims := k.tasks.zipIdx.flatMap (fun t => (claimObjs b t.1).map (fun o => (t.2, o))) }

/-- R123: every object the book names. -/
def Book.objects (k : Book) (b : Bus) : List Nat :=
  k.decls.flatMap declObjs
    ++ k.tasks.flatMap (fun t => admitObjs t ++ doneObjs t ++ (bookSteps b t).flatMap (fun x => stepWaits x ++ stepClaimed x ++ stepSignals x))
    ++ k.regions.filterMap (fun r => if r.syncEn then some r.sync else none)

/-- R123: KIND of every object the book names: ARRIVAL, WORK or EVENT. -/
def setKinds (b : Bus) (k : Book) : Bus :=
  let work := k.claims.map (·.2)
  let arr := k.regions.filterMap (fun r => if r.remoteFed then some r.sync else none)
  (k.objects b).foldl (fun b o => b.setField (syncB o + 8) 9 8 (if arr.contains o then 1 else if work.contains o then 2 else 0)) b

/-- R260: DMA_BOOKED of every engine. -/
def setBooked (b : Bus) (k : Option Book) : Bus :=
  let ch (k : Book) : List Nat := k.tasks.filterMap (fun t => if t.cls = 4 then some t.inst else none)
  let on := match k with | some k => ch k | none => []
  (List.range 4).foldl (fun b q => b.setReg (dmaB q + 8)
    ((List.range 16).foldl (fun m i => m + (if on.contains (16 * q + i) then 2 ^ i else 0)) 0)) b

-- Commands --------------------------------------------------------------------------------------------------------------------

/-- R152: FSEQ_STATUS.CFG_ERR. -/
def Bus.fseqErr (b : Bus) : Bus := b.raise (fseqB + 4) 31

/-- R124: a write of LOAD: taken while RUN = 0. -/
def Bus.startLoad (b : Bus) : Bus :=
  if b.flag fseqB 0 then b.inc (fseqB + 0x210) else b.setFlag (fseqB + 4) 2 true

/-- R124, R125, R377: the load in progress ends with its checks. -/
def State.finishLoad (s : State) : State :=
  if s.bus.flag (fseqB + 4) 2 = false then s
  else
    let c := loadCode s.bus
    let h := decodeHead (bookBytes s.bus 0 64)
    let b := ((s.bus.setFlag (fseqB + 4) 2 false).setField (fseqB + 4) 15 8 c).setFlag (fseqB + 4) 1 (decide (c = 0))
    if c = 0 then
      let k := (readBook s.bus h).withClaims s.bus
      { s with
        bus := (setBooked (setKinds b k) (some k)).setReg (fseqB + 0x38) h.crc
        fseq := { s.fseq with book := some k, corrupt := false }
        sd := { s.sd with bookCrc := BitVec.ofNat 32 h.crc, bookValid := true } }
    else
      { s with
        bus := (setBooked b none).setReg (fseqB + 0x38) 0
        fseq := { s.fseq with book := none }
        sd := { s.sd with bookCrc := 0, bookValid := false } }

/-- R124 LOAD. -/
def execLoad (s : State) : Host.Outcome State Fault Refusal := .next (s.main fun s => s.onBus (·.startLoad))

/-- R125 LOAD_DONE. -/
def execLoadDone (s : State) : Host.Outcome State Fault Refusal := .next (s.main State.finishLoad)

end Sys2Proof.Machine
end

