-- ==== Sys2Proof/Machine/Frames.lean ====
section
/-! DEFINITION. The frame sequencer: opening frames (R136, R137, R108), admitting tasks (R139 to R141), completion and retirement
(R143), abandonment and resynchronisation (R144, R145), rollback (R372 to R374), the spare station (R146 to R148), and
FSEQ_CTRL.RUN. -/

namespace Sys2Proof.Machine

-- Batches made without records (R251) -----------------------------------------------------------------------------------------

/-- The batch of a frame. -/
def Select.batch (q : Select) (f : Nat) : Option Batch := q.batches.find? (fun x => x.frame = f)

/-- A batch put in the place of its frame's. -/
def Select.put (q : Select) (x : Batch) : Select :=
  { q with batches := if q.batches.any (fun y => y.frame = x.frame)
      then q.batches.map (fun y => if y.frame = x.frame then x else y) else q.batches ++ [x] }

/-- R249, R427: the end mark of frame `f` passed to the Junesha die, and to a system's record stream. -/
def State.passEnd (s : State) (f : Nat) : State :=
  let s := s.emit (.endMark f)
  if 1 < s.bus.topo.size ∧ s.bus.topo.own = 0 then s.token (.kydRecord f [] true) else s

/-- R334: a batch with no delivered records is tested with no boxes. -/
def State.noRecords (s : State) (f : Nat) : State :=
  let c := s.sd.frame f
  if c.issued || decide (1 < s.bus.topo.size ∧ s.bus.topo.own ≠ 0) then s
  else { s with sd := s.sd.putFrame { c with boxes := [] } }

/-- R249: the verdict of frame `f` that the header buffer already holds. -/
def State.heldVerdict (s : State) (f : Nat) : Option Verdict := s.select.verdicts.find? (fun v => decide (v.frame = f))

/-- R252, R258: BANK_WAIT counts a frame whose SM_BOXES or empty commit finds its bank in use, once. -/
def State.countWait (s : State) (f : Nat) : State :=
  if s.select.bankWaits.contains f then s
  else { s.onBus (·.inc (smeB + 0x41C)) with
    select := { s.select with bankWaits := f :: s.select.bankWaits.filter (fun g => decide (f < g + 8)) } }

/-- R251, R334: an empty batch to be committed for a frame; a frame already committed keeps its batch. -/
def State.emptyBatch (s : State) (f : Nat) (cause : Option Nat) (needVerdict : Bool) : State :=
  match s.select.batch f with
  | some x =>
    if x.committed then s
    else
      let y := { x with slots := 0, boxes := 0, tieExcluded := 0, dupRemoved := 0, recordsDone := true, zeroShape := true }
      let s := if x.recordsDone then s else s.passEnd f
      { s with select := s.select.put { y with needVerdict := needVerdict, cause := cause } }.noRecords f
  | none =>
    let y : Batch := { frame := f, bank := f % 2, recordsDone := true, zeroShape := true, needVerdict := needVerdict, cause := cause,
                       verdict := s.heldVerdict f }
    { s.passEnd f with select := s.select.put y }.noRecords f

-- Fed ranges (R108) ------------------------------------------------------------------------------------------------------------

/-- The fed ranges of a frame's tasks, at local addresses (R24): base, size in 64-byte units, arrival object. -/
def fedRegions (b : Bus) (k : Book) (spare : Nat) : List (Nat × Nat × Nat) :=
  (k.tasks.flatMap (fun t =>
    match physUnit t.cls t.inst spare with
    | none => []
    | some u => (k.slots t).filterMap (fun r =>
        let x := r.resolve u spare
        if x.remoteFed && decide (0 < x.size) then some (b.localAddr x.base, x.size, x.sync) else none))).eraseDups

/-- The addresses of a table's entries. -/
def tableEntries (t : Nat × Nat) : List Nat := (List.range t.2).map (fun i => t.1 + 16 * i)

/-- R108: the entry of a table that holds a range with its arrival object. -/
def Bus.fedEntry (b : Bus) (t : Nat × Nat) (r : Nat × Nat × Nat) : Option Nat :=
  (tableEntries t).find? (fun e => match b.fedAt e with
    | some x => decide (x.base = r.1 ∧ x.stop = r.1 + 64 * r.2.1 ∧ x.object = r.2.2)
    | none => false)

/-- R108: one range registered in one table: the bus, or the fault code of FED_RANGE_FULL or FED_OVERLAP. -/
def registerIn (b : Bus) (r : Nat × Nat × Nat) (t : Nat × Nat) : Bus × Nat :=
  match b.fedEntry t r with
  | some e => (b.setField (e + 12) 30 24 (b.field (e + 12) 30 24 + 1), 0)
  | none =>
    if (b.fedsIn t).any (fun x => decide (overlap r.1 (64 * r.2.1) x.base x.stop ≠ 0 ∧ x.object ≠ r.2.2)) then (b, 0x21)
    else
      match (tableEntries t).find? (fun e => (b.fedAt e).isNone) with
      | none => (b, 0x20)
      | some e => (((b.setReg64 e r.1).setReg (e + 8) r.2.1).setReg (e + 12) (2 ^ 31 + 2 ^ 24 + r.2.2), 0)

/-- R108: one range registered in the table of every slice or commons that holds part of it; none where one refuses. -/
def registerFed (b : Bus) (r : Nat × Nat × Nat) : Bus × Nat :=
  let x := (fedTables r.1 (64 * r.2.1)).foldl (fun (q : Bus × Nat) t => if q.2 = 0 then registerIn q.1 r t else q) (b, 0)
  if x.2 = 0 then x else (b, x.2)

/-- R108: one registration of a range removed from a table; the last clears its entry. -/
def dropIn (r : Nat × Nat × Nat) (b : Bus) (t : Nat × Nat) : Bus :=
  match b.fedEntry t r with
  | none => b
  | some e =>
    if b.field (e + 12) 30 24 ≤ 1 then ((b.setReg64 e 0).setReg (e + 8) 0).setReg (e + 12) 0
    else b.setField (e + 12) 30 24 (b.field (e + 12) 30 24 - 1)

/-- R108: one registration of a range removed. -/
def dropFed (b : Bus) (r : Nat × Nat × Nat) : Bus := (fedTables r.1 (64 * r.2.1)).foldl (dropIn r) b

/-- R108: every range of a frame registered in turn, up to the first refusal: those registered, and the fault code. -/
def registerAll (b : Bus) (done : List (Nat × Nat × Nat)) : List (Nat × Nat × Nat) → Bus × List (Nat × Nat × Nat) × Nat
  | [] => (b, done, 0)
  | r :: rs =>
    let x := registerFed b r
    if x.2 = 0 then registerAll x.1 (done ++ [r]) rs else (x.1, done, x.2)

/-- R143: a frame's fed ranges removed. -/
def State.removeFeds (s : State) (x : OpenFrame) : State :=
  { s with
    bus := x.fed.foldl dropFed s.bus
    fseq := s.fseq.modFrame x.frame (fun y => { y with fed := [] }) }

-- Ledgers and TARGETs (R123, R137, R141) ------------------------------------------------------------------------------------------

/-- R123: a declaration's advance for a resolved shape. -/
def Decl.advance (d : Decl) (dims : List Nat) : Word :=
  BitVec.ofNat 32 ((dims.getD d.advDim 0 + d.advConst) * 2 ^ d.advShift)

/-- The ledger declarations of the book. -/
def FrameSeq.ledgers (q : FrameSeq) : List Decl :=
  match q.book with
  | none => []
  | some k => k.decls.filter (fun d => !d.parity)

/-- R137 step 2: the ledger bases of the frame being opened. -/
def FrameSeq.newLedger (q : FrameSeq) (b : Bus) : List (Nat × Word) :=
  q.ledgers.map (fun d => (d.object,
    if q.fresh then BitVec.ofNat 32 (b.count d.object)
    else (alook q.ledgerPrev d.object).getD 0 + (alook q.advancePrev d.object).getD 0))

/-- The advances of declarations that no task sets. -/
def FrameSeq.fixedAdvances (q : FrameSeq) : List (Nat × Word) :=
  q.ledgers.filterMap (fun d => if d.advTask = 0xFFFF then some (d.object, d.advance []) else none)

/-- Every task of the book claiming object `o` has completed in frame `f`, or frame `f` is no longer open. -/
def FrameSeq.claimsDone (q : FrameSeq) (f o : Nat) : Bool :=
  match q.frame f, q.book with
  | some x, some k => k.claims.all (fun c => decide (c.2 ≠ o) || x.done.contains c.1)
  | _, _ => true

/-- R141: in one open frame, the TARGET of every WORK object that may now be written. -/
def State.frameTargets (s : State) (x : OpenFrame) : State :=
  match s.fseq.book with
  | none => s
  | some k =>
    (s.fseq.ledgers.filter (fun d => k.claims.any (fun c => c.2 = d.object))).foldl (fun s d =>
      match s.fseq.frame x.frame with
      | none => s
      | some y =>
        if y.abandoned || y.targets.contains d.object || !(decide (d.advTask = 0xFFFF) || y.admitted.contains d.advTask)
            || !(decide (x.frame = 0) || s.fseq.claimsDone (x.frame - 1) d.object) then s
        else
          let v := (alook y.ledger d.object).getD 0 + (alook y.advances d.object).getD 0
          { s with
            bus := s.bus.setTarget d.object v.toNat
            fseq := s.fseq.modFrame x.frame (fun z => { z with targets := d.object :: z.targets }) }) s

/-- R141: the TARGETs of the open frames, the older first. -/
def State.tryTargets (s : State) : State := s.fseq.openFrames.foldl State.frameTargets s

-- Opening (R136, R137, R146) -------------------------------------------------------------------------------------------------------

/-- R136: the first frame whose window starts at or after instant `t`. -/
def Bus.firstFrame (b : Bus) (t : Nat) : Nat :=
  if b.tf = 0 then 0
  else
    let d : Int := (t : Int) - b.reg64 (fseqB + 0x10)
    (d / b.tf + (if d % b.tf = 0 then 0 else 1) + 1).toNat

/-- The start of frame `f`'s window. -/
def Bus.windowStart (b : Bus) (f : Nat) : Int := (b.tref f : Int) - b.tf

/-- R152: RUNNING: a frame is open. -/
def State.setRunning (s : State) : State := s.onBus (·.setFlag (fseqB + 4) 0 (decide (s.fseq.openFrames ≠ [])))

/-- R146: the spare station. -/
def Bus.spare (b : Bus) : Nat := b.field (fseqB + 0x30) 4 0

/-- R147: an open test window is cut and counted. -/
def State.cutWindow (s : State) : State :=
  if s.bus.flag (fseqB + 0x30) 5 then s.onBus (fun b => (b.setFlag (fseqB + 0x30) 5 false).inc (fseqB + 0x214)) else s

/-- R146, R175: the spare advances when its test has completed; the new spare's tags are cleared. -/
def State.advanceSpare (s : State) : State :=
  if s.fseq.spareDone then
    let n := (s.bus.spare + 1) % 32
    { s.onBus (fun b => ((b.setReg (fseqB + 0x30) n).setReg (stnB n + 8) 0).setReg (stnB n + 0x0C) 0) with
      fseq := { s.fseq with spareDone := false, spareFirst := none }
      stns := modAt (fun x => { x with cellKey := none, tabKey := none }) s.stns n }
  else s

/-- R137, R419: the conditions for opening the next frame at `now`. -/
def State.canOpen (s : State) (f now : Nat) : Bool :=
  let q := s.fseq
  s.bus.flag fseqB 0 && q.book.isSome && !q.corrupt && decide (q.resync = []) && decide (s.bus.windowStart f ≤ now)
    && decide (q.openFrames.length < 2) && !(q.openFrames.any (fun x => x.frame + 2 ≤ f))
    && (match q.openFrames.find? (fun x => x.frame + 1 = f) with
        | none => true
        | some x => q.ledgers.all (fun d => decide (d.advTask = 0xFFFF) || x.admitted.contains d.advTask))
    && (decide (s.bus.topo.size ≤ 1) || decide (s.bus.topo.own = 0) || q.released.contains f)

/-- R144: a frame-class fault: its record's task, unit and step are open. -/
def State.reportFrame (s : State) (f code : Nat) : State :=
  let w (i : Nat) : Nat := (Config.freeWord (s.bus.free + i)).toNat
  let s := s.onBus (fun b => { b with free := b.free + 3 })
  s.report f (w 0) code (w 1) (w 2)

/-- R419: the manager's FRAME_RELEASE of each frame it has open, once every device has reported the frame two before it retired. -/
def State.sendReleases (s : State) : State :=
  let t := s.bus.topo
  if t.size ≤ 1 ∨ t.own ≠ 0 then s
  else
    let due := (s.fseq.openFrames.map (·.frame)).filter (fun f => !s.fseq.released.contains f && (decide (f < s.fseq.sysFirst + 2)
      || (List.range t.size).all (fun n => decide (n = 0) || (match alook s.kydor.retired n with | some g => decide (f ≤ g + 2) | none => false))))
    due.foldl (fun s f => { s.token (.kydTok (.frameToken f (s.bus.tref f))) with
      fseq := { s.fseq with released := f :: s.fseq.released } }) s

/-- The tasks of the book marked HIST_WRITE. -/
def FrameSeq.histWrites (q : FrameSeq) : List Nat :=
  match q.book with
  | none => []
  | some k => k.tasks.zipIdx.filterMap (fun t => if t.1.histWrite then some t.2 else none)

/-- R29, R143: every HIST_WRITE task of frame `f` has completed, or the frame is no longer open or abandoned. -/
def FrameSeq.histDoneIn (q : FrameSeq) (f : Nat) : Bool :=
  match q.frame f with
  | some x => x.abandoned || q.histWrites.all (fun t => x.done.contains t)
  | none => true

/-- R77: no lookup of frame `f` is owed any more. -/
def State.lookDoneIn (s : State) (f : Nat) : Bool :=
  match s.fseq.frame f with
  | some x => x.abandoned || !(s.lookupsOwed x)
  | none => true

/-- R89, R419: the manager tells every device that the history writes of frame `f` are complete on all of them. -/
def State.relayHist (s : State) (f : Nat) : State :=
  if s.fseq.histDoneIn f && (List.range s.bus.topo.size).all (fun d => decide (d = 0) || s.kydor.histDone.contains (d, f)) then
    s.token (.kydTok (.histDone 0 f))
  else s

/-- R77, R89: the manager tells every device that the history lookups of frame `f` are complete on all of them. -/
def State.relayLook (s : State) (f : Nat) : State :=
  if s.lookDoneIn f && (List.range s.bus.topo.size).all (fun d => decide (d = 0) || s.kydor.lookDone.contains (d, f)) then
    s.token (.kydTok (.lookDone 0 f))
  else s

/-- R77, R89: what device `n` tells its system of frame `f`, once each: its history writes are complete, its lookups are. -/
def State.tellFrame (n : Fin 32) (s : State) (x : OpenFrame) : State :=
  let s := if x.histTold || !(s.fseq.histDoneIn x.frame) then s
    else
      let t := { s with fseq := s.fseq.modFrame x.frame ({ · with histTold := true }) }
      if n.val = 0 then t.relayHist x.frame else t.token (.kydTok (.histDone n x.frame))
  if x.lookTold || !(s.lookDoneIn x.frame) then s
  else
    let t := { s with fseq := s.fseq.modFrame x.frame ({ · with lookTold := true }) }
    if n.val = 0 then t.relayLook x.frame else t.token (.kydTok (.lookDone n x.frame))

/-- R89: the reports that a device of a system owes it. -/
def State.tellSystem (s : State) : State :=
  if h : 1 < s.bus.topo.size ∧ s.bus.topo.own < 32 then s.fseq.openFrames.foldl (State.tellFrame ⟨s.bus.topo.own, h.2⟩) s else s

/-- R137: frame `f` opened. -/
def State.openFrame (s : State) (f : Nat) : State :=
  let s := s.cutWindow.advanceSpare
  let sp := s.bus.spare
  let led := s.fseq.newLedger s.bus
  let adv := s.fseq.fixedAdvances
  let decls := match s.fseq.book with | some k => k.decls | none => []
  let bus := decls.foldl (fun b d => if d.parity then b.set (parObj true d.object f) 0 else b) s.bus
  let r : Bus × List (Nat × Nat × Nat) × Nat := match s.fseq.book with
    | some k => registerAll bus [] (fedRegions bus k sp)
    | none => (bus, [], 0)
  let fr : OpenFrame := { frame := f, spare := sp, ledger := led, advances := adv, fed := r.2.1 }
  let s := { s with
    bus := (((r.1.setReg (fseqB + 0x20) f).inc (fseqB + 0x200)).emit (.frameToken f (r.1.tref f))).setFlag (fseqB + 4) 0 true
    fseq := { s.fseq with openFrames := s.fseq.openFrames ++ [fr], next := some (f + 1), fresh := false,
                          ledgerPrev := led, advancePrev := adv, released := s.fseq.released.filter (fun x => decide (f < x + 2)),
                          sysFirst := if s.fseq.fresh then f else s.fseq.sysFirst } }.sendReleases
  if r.2.2 = 0 then s.tryTargets.tellSystem else s.reportFrame f r.2.2

/-- R137 FRAME_OPEN. -/
def execFrameOpen (now : Nat) (s : State) : Host.Outcome State Fault Refusal :=
  .next (s.main fun s =>
    match s.fseq.next with
    | none => s
    | some f => if s.canOpen f now then (s.at now).openFrame f else s)

-- Completion ------------------------------------------------------------------------------------------------------------------------

/-- The number of tasks of the book. -/
def FrameSeq.taskCount (q : FrameSeq) : Nat := match q.book with | some k => k.tasks.length | none => 0

/-- R143: task `t` of frame `f` marked complete; the last task of a frame removes its fed ranges, and a device of a system reports what has
ended with it (R89). -/
def State.markDone (s : State) (f t : Nat) : State :=
  let s := { s with fseq := s.fseq.modFrame f (fun x => { x with done := if x.done.contains t then x.done else t :: x.done }) }
  let s := match s.fseq.frame f with
    | some x => if s.fseq.taskCount ≤ x.done.length then s.removeFeds x else s
    | none => s
  s.tryTargets.tellSystem

/-- R359: an END token. -/
def State.endTok (s : State) (e : TaskEntry) (f : Nat) (zero : Bool) : State :=
  if e.monitorEn then s.emit (.endToken e.monitor (f % 65536) zero) else s

/-- R129, R140: a dim of a step outside all loops in a shape whose dims are `dims`, no dim being loaded. -/
def zeroDim (dims : List Nat) (dim sel : Nat) : Nat :=
  if sel = 0 then dim
  else if sel ≤ 4 then dims.getD (sel - 1) 0
  else if sel ≤ 8 then 0
  else Nat.min dim (dims.getD (sel - 9) 0)

/-- R140 step 1: the signals of every step outside all loops; a SIGNAL_N adds its DIM0 as the task's shape resolves it (R133). -/
def outerSignals (b : Bus) (f : Nat) (dims : List Nat) (steps : List BookStep) : Bus :=
  (steps.foldl (fun (q : Bus × Nat) x =>
    if x.ext then q
    else
      let op := if x.d.unit = 0 then x.d.op else 0
      let sigs := if op = 3 then x.d.signals.drop 1 else x.d.signals
      let n := if op = 6 then zeroDim dims (x.d.dims.getD 0 0) (x.d.sels.getD 0 0) else 1
      let closing := decide (op = 2 ∨ op = 4)
      (if q.2 = 0 ∧ closing = false then doSignals q.1 f n sigs else q.1,
       if op = 1 ∨ op = 3 then q.2 + 1 else if closing then q.2 - 1 else q.2)) (b, 0)).1

/-- R125, R251: the step list of a task holds an SM_BOXES. -/
def hasBoxes (b : Bus) (e : TaskEntry) : Bool :=
  decide (e.cls = 5) && (bookSteps b e).any (fun x => decide (x.d.unit = 6 ∧ x.d.op = 2))

/-- R140: task `t` of frame `f` completed as a zero shape, its dims being `dims`. -/
def State.completeZero (s : State) (f t : Nat) (e : TaskEntry) (slots : List Region) (dims : List Nat) : State :=
  let s := if e.monitorEn then s.emit (.startToken e.monitor (f % 65536)) else s
  let s := s.onBus (fun b =>
    let b := outerSignals b f dims (bookSteps b e)
    let b := if e.countEn then
        (match slots[e.countSlot]? with
         | some r => (b.put (.unit 32) (r.base + e.countOff) (zeros 4)).1
         | none => b) else b
    doSignals b f 1 e.done)
  let s := if hasBoxes s.bus e then s.emptyBatch f none true else s
  (s.endTok e f true).markDone f t

/-- R143: the context's list has ended and every write of the task has been performed: the task completes. -/
def State.completeTask (s : State) (u : UnitId) (p : Fin 2) : State :=
  match s.ctx u p with
  | none => s
  | some x =>
    match s.fseq.frame x.frame with
    | none => s
    | some fr =>
      if fr.abandoned || x.stopped || decide (x.tags ≠ []) || decide (x.owed ≠ []) || decide (x.step < x.entry.stepCount) then s
      else
        let s := s.releaseAcc u p
        let s := { s with fseq := { s.fseq with ctxs := adel s.fseq.ctxs (u, p) } }
        let s := s.onBus (fun b => doSignals b x.frame 1 x.entry.done)
        (s.endTok x.entry x.frame false).markDone x.frame x.task

/-- R143 TASK_COMPLETE. -/
def execTaskComplete (u : UnitId) (p : Fin 2) (s : State) : Host.Outcome State Fault Refusal :=
  .next (s.main fun s => s.completeTask u p)

-- Admission (R139, R140) --------------------------------------------------------------------------------------------------------------

/-- R89, R419: in a system, the history lookups of frame `f` are released. -/
def State.lookupsReleased (s : State) (f : Nat) : Bool :=
  let t := s.bus.topo
  decide (t.size ≤ 1) || decide (f ≤ s.fseq.sysFirst)
    || (if t.own = 0 then (List.range t.size).all (fun d => decide (d = 0) || s.kydor.histDone.contains (d, f - 1))
        else s.kydor.histDone.contains (0, f - 1))

/-- R139: the conditions for admitting task `t` of open frame `x`. -/
def State.canAdmit (s : State) (x : OpenFrame) (t : Nat) (e : TaskEntry) : Bool :=
  let q := s.fseq
  !x.abandoned && !(x.admitted.contains t)
    && (match (if x.frame = 0 then none else q.frame (x.frame - 1)) with
        | some y => y.abandoned || y.done.contains t
        | none => true)
    && (match q.book with
        | none => false
        | some k =>
          ((k.tasks.zipIdx.filter (fun y => decide (y.2 < t ∧ y.1.cls = e.cls ∧ y.1.inst = e.inst))).all
              (fun y => x.done.contains y.2))
            && k.claims.all (fun c => decide (c.1 ≠ t) || x.targets.contains c.2))
    && waitOk s.bus x 0 e.admission
    && (!e.histLookup || (decide (x.frame = 0) || q.histDoneIn (x.frame - 1)) && s.lookupsReleased x.frame)

/-- R140: a resolved shape above its plan. -/
def overPlan (e : TaskEntry) (dims : List Nat) : Bool := (e.plan.zip dims).any (fun p => decide (p.1 < p.2))

/-- R140: a zero shape. -/
def zeroShape (e : TaskEntry) (dims : List Nat) : Bool := (e.plan.zip dims).any (fun p => decide (p.1 ≠ 0 ∧ p.2 = 0))

/-- R123, R139 step 4: the advances that the resolved shape of task `t` sets in its frame. -/
def State.setAdvances (s : State) (f t : Nat) (dims : List Nat) : State :=
  let adv := s.fseq.ledgers.filterMap (fun d => if d.advTask = t then some (d.object, d.advance dims) else none)
  let put (l : List (Nat × Word)) : List (Nat × Word) := adv.foldl (fun l a => aset l a.1 a.2) l
  let last := match s.fseq.next with | some n => decide (n = f + 1) | none => false
  { s with fseq := { (s.fseq.modFrame f (fun x => { x with
      admitted := t :: x.admitted, advances := put x.advances })) with
      advancePrev := if last then put s.fseq.advancePrev else s.fseq.advancePrev } }

/-- The edges of VOXEL_CFG latched for frame `f`. -/
def State.edgesOf (s : State) (f : Nat) : Nat :=
  match s.intake.latches.find? (fun l => l.frame = f) with
  | some l => l.edges.toNat
  | none => s.bus.field (sieB 0 + 0x0C) 23 0

/-- R73: HS_EPOCH and HS_EDGES at the release of the first BSE step of frame `f`. -/
def State.epochAt (s : State) (f : Nat) : State :=
  if (match s.fseq.frame f with | some x => x.epochSeen | none => true) then s
  else
    let e := s.edgesOf f
    let up := s.hist.newEpoch || decide (e ≠ s.bus.reg (hcB + 0x1C))
    { s.onBus (fun b => if up then (b.setReg (hcB + 0x18) ((b.hsEpoch + 1) % 65536)).setReg (hcB + 0x1C) e else b) with
      hist := { s.hist with newEpoch := false }
      fseq := s.fseq.modFrame f ({ · with epochSeen := true }) }

/-- R139 step 5: the task passed to its unit's context. A task that comes to the station under test ends its window (R147). -/
def State.dispatch (s : State) (u : UnitId) (p : Fin 2) (x : Ctx) : State :=
  let s := match u with
    | .bse _ => s.epochAt x.frame
    | .stn i => if i.val = s.bus.spare then s.cutWindow else s
    | _ => s
  s.setCtx u p x

/-- R139, R140: task `t` of frame `x` admitted. A shape record that no slot of the task holds is an invalid region; a refused read of it
abandons the frame (R21, R144). -/
def State.admitTask (s : State) (x : OpenFrame) (p : Fin 2) (t : Nat) (e : TaskEntry) (k : Book) : State :=
  match physUnit e.cls e.inst x.spare with
  | none => s
  | some u =>
    let slots := (k.slots e).map (fun r => r.resolve u x.spare)
    let bad := (slots.zip (k.slots e)).any (fun r => r.1.bad s.bus x.spare (r.2.isLocal || r.2.sliceRel))
      || (e.record && decide (slots.length ≤ e.shapeSlot))
    if bad then
      ((s.setAdvances x.frame t [0, 0, 0, 0]).report x.frame t 0x02 (unitNo u) 0).completeZero x.frame t e slots [0, 0, 0, 0]
    else
      let at' := match slots[e.shapeSlot]? with | some r => r.base + e.shapeOff | none => 0
      let g := s.bus.fetch at' (if e.record then 16 else 0)
      let dims := if e.record then tab 4 (fun i => fld g.bytes (4 * i) 4) else e.plan
      let s := if e.record then (s.onBus (fun b => { b with late := b.late ++ b.regReads (.unit 32) at' 16 })).poisonReads u
        (s.bus.poisonedLines at' 16) else s
      let s := if g.poisoned then s.report x.frame t 0x11 (unitNo u) 0 else s
      if g.busErr then (s.onBus (·.busErr)).report x.frame t 0x08 (unitNo u) 0
      else if overPlan e dims then
        ((s.setAdvances x.frame t [0, 0, 0, 0]).report x.frame t 0x01 (unitNo u) 0).completeZero x.frame t e slots [0, 0, 0, 0]
      else
        let s := s.setAdvances x.frame t dims
        if zeroShape e dims then s.completeZero x.frame t e slots dims
        else
          s.tryTargets.dispatch u p { task := t, frame := x.frame, entry := e, slots := slots, dims := dims, taint := g.poisoned }

/-- R139 TASK_ADMIT. -/
def runTaskAdmit (t : Nat) (p : Fin 2) (s : State) : Host.Outcome State Fault Refusal :=
  .next (s.main fun s =>
    match s.fseq.frameOfParity p.val, s.fseq.book with
    | some x, some k =>
      match k.tasks[t]? with
      | some e => if s.canAdmit x t e then s.admitTask x p t e k else s
      | none => s
    | _, _ => s)

-- Retirement (R143, R375) ----------------------------------------------------------------------------------------------------------------

/-- R375: the sum of two accumulators' sets, in binary64. -/
def Accum.plus (a b : Accum) : Accum :=
  let z (x y : List (BitVec 64)) : List (BitVec 64) :=
    (x.zip y).map (fun p => BitVec.ofNat 64 (fadd fmt64 p.1.toNat p.2.toNat))
  { count := Nat.min (a.count + b.count) 0xFFFFFFFF, gated := Nat.min (a.gated + b.gated) 0xFFFFFFFF,
    first := if a.count = 0 ∧ b.count ≠ 0 then b.first else a.first, last := if b.count = 0 then a.last else b.last,
    sumW := BitVec.ofNat 64 (fadd fmt64 a.sumW.toNat b.sumW.toNat),
    sumWr2 := BitVec.ofNat 64 (fadd fmt64 a.sumWr2.toNat b.sumWr2.toNat), g := z a.g b.g, a := z a.a b.a }

/-- R311: the accumulators zeroed for a new calibration sequence number. -/
def State.restartCal (s : State) (f seq : Nat) : State :=
  if seq = s.bus.reg (cleB + 0x18) then s
  else
    { s.onBus (fun b => (b.setReg (cleB + 0x18) seq).inc (cleB + 0x10C)) with
      calib := { s.calib with accs := List.replicate 16 { first := f } } }

/-- R304: the ACTIVE_SEQ latched for frame `f`. -/
def State.calSeqOf (s : State) (f : Nat) : Nat :=
  match s.intake.latches.find? (fun l => l.frame = f) with
  | some l => l.calSeq.toNat
  | none => s.bus.reg (cleB + 0x10)

/-- R375: the pending set of frame `f` added when the frame retires (`keep`), or dropped. -/
def State.settlePending (s : State) (f : Nat) (keep : Bool) : State :=
  let pend := if f % 2 = 0 then s.calib.pend0 else s.calib.pend1
  if pend = [] then s
  else
    let s := if keep then
        let s := s.restartCal f (s.calSeqOf f)
        { s with calib := { s.calib with accs := pend.foldl (fun l a => modAt (fun x => x.plus a.2) l a.1) s.calib.accs } }
      else s
    { s with calib := if f % 2 = 0 then { s.calib with pend0 := [] } else { s.calib with pend1 := [] } }

/-- R251: the batch of a frame that completes: one waiting for a verdict without records waits no longer, and a frame without a batch
gets an empty one. -/
def State.closeBatch (s : State) (f : Nat) (fault : Option Nat) : State :=
  match s.select.batch f with
  | none => s.emptyBatch f fault false
  | some x => if x.zeroShape && !x.committed then s.emptyBatch f fault false else s

/-- R143: frame `f` retired. -/
def State.retire (s : State) (x : OpenFrame) : State :=
  let s := (s.removeFeds x).closeBatch x.frame x.fault
  let s := s.settlePending x.frame true
  let s := { s with
    bus := s.bus.setReg (fseqB + 0x24) x.frame
    fseq := { s.fseq with openFrames := s.fseq.openFrames.filter (fun y => decide (y.frame ≠ x.frame)) } }
  let s := match (if h : 1 < s.bus.topo.size ∧ s.bus.topo.own < 32 then some (⟨s.bus.topo.own, h.2⟩ : Fin 32) else none) with
    | some n => if n.val = 0 then s else s.token (.kydTok (.retired n x.frame))
    | none => s
  s.setRunning.tryTargets

/-- R143 FRAME_RETIRE. -/
def runFrameRetire (p : Fin 2) (s : State) : Host.Outcome State Fault Refusal :=
  .next (s.main fun s =>
    match s.fseq.frameOfParity p.val with
    | none => s
    | some x => if x.abandoned || decide (x.done.length < s.fseq.taskCount) then s else s.retire x)

-- Faults from outside a step ----------------------------------------------------------------------------------------------------------------

/-- A step that is not to signal any more: its writes on their way hold back the task's completion only (R143). -/
def State.dropDue (s : State) (u : UnitId) (p : Fin 2) : State :=
  match s.ctx u p with
  | some x => s.setCtx u p { x with owed := x.owed ++ x.tags, tags := [], told := [], due := none }
  | none => s

/-- R135: the issued step of a context has run `cycles` cycles of its unit's clock without completing. -/
def execStepOverrun (u : UnitId) (p : Fin 2) (cycles : Nat) (s : State) : Host.Outcome State Fault Refusal :=
  .next (s.main fun s =>
    match s.ctx u p with
    | none => s
    | some x =>
      match s.fseq.frame x.frame, fetchStep s.bus x x.step with
      | some fr, some d =>
        if x.stopped || fr.abandoned || decide (x.entry.stepCount ≤ x.step) || decide (d.budget = 0 ∨ cycles < 64 * d.budget)
            || (decide (x.due = none) && !(waitsOk s.bus x fr d)) then s
        else (s.dropDue u p).stopTask u p x fr [0x0A]
      | _, _ => s)

/-- R144: the codes of the table. -/
def knownFault (c : Nat) : Bool := decide ((1 ≤ c ∧ c ≤ 0x0B) ∨ (0x10 ≤ c ∧ c ≤ 0x12) ∨ (0x20 ≤ c ∧ c ≤ 0x23))

/-- R144: a fault reported for open frame of parity `p`: a stop-class fault stops its task. -/
def State.reportFault (s : State) (p : Fin 2) (task code unit step : Nat) : State :=
  match s.fseq.frameOfParity p.val with
  | none => s
  | some fr =>
    if fr.abandoned || !(knownFault code) then s
    else
      match s.fseq.ctxs.find? (fun c => c.2.frame = fr.frame && c.2.task = task) with
      | some ((u, q), x) =>
        if faultClass code = .stop then (s.stopCtx u q).report fr.frame task code unit step (s.recovers u q x fr)
        else s.report fr.frame task code unit step
      | none => s.report fr.frame task code unit step

/-- R144 FAULT_REPORT. -/
def execFaultReport (p : Fin 2) (task : Nat) (code unit : Byte) (step : Nat) (s : State) : Host.Outcome State Fault Refusal :=
  .next (s.main fun s => s.reportFault p task code.toNat unit.toNat step)

/-- R151: ABANDON in ns; values below the deadline act as the deadline. -/
def State.abandonNs (s : State) : Nat := Nat.max (s.bus.reg (fseqB + 0x28) * 1000) s.deadlineNs

/-- R144 0x22: an open frame not retired at t_ref + ABANDON. -/
def execAbandonTimeout (p : Fin 2) (now : Nat) (s : State) : Host.Outcome State Fault Refusal :=
  .next (s.main fun s =>
    match s.fseq.frameOfParity p.val with
    | none => s
    | some fr =>
      if fr.abandoned || decide (now < s.bus.tref fr.frame + s.abandonNs) then s else (s.at now).reportFrame fr.frame 0x22)

-- Resynchronisation (R145, R220) ---------------------------------------------------------------------------------------------------------------

/-- RELEASE_CFG as latched last (R481). -/
def State.releaseBase (s : State) : Nat :=
  match s.intake.latches.getLast? with
  | some l => ({ s.bus with regs := l.regs } : Bus).field (sieB 0 + 0x64) 13 0
  | none => s.bus.field (sieB 0 + 0x64) 13 0

/-- R145 step 5: RELEASE_SYNC of bank `p` raised by ADD to the number of frames published from it. -/
def State.raiseRelease (s : State) (p : Nat) : State :=
  let o := (s.releaseBase + p) % 16384
  let n := (if p = 0 then s.intake.published0 else s.intake.published1) % 2 ^ 32
  let c := s.bus.count o
  if c < n then s.onBus (·.add o (n - c)) else s

/-- R220: each front end's counts of published frames set to the counts of CAM_RELEASE. -/
def State.resyncCams (s : State) : State :=
  { s with cams := s.cams.mapIdx (fun d c =>
      let o := s.bus.field (camB d + 0x20) 29 16
      { c with published0 := s.bus.count (o % 16384), published1 := s.bus.count ((o + 1) % 16384) }) }

/-- R145 steps 4 to 8, R374: the abandoned frames' writes are performed. -/
def State.resynchronise (s : State) (now : Nat) : State :=
  let gone := s.fseq.openFrames.filter (·.abandoned)
  let s := s.fseq.resync.foldl (fun s r => s.emptyBatch r.1 (some r.2) false) s
  let s := (s.raiseRelease 0).raiseRelease 1
  let s := gone.foldl (fun s x => (s.removeFeds x).settlePending x.frame false) s
  let s := s.resyncCams
  let old := match s.fseq.next with | some n => n | none => 0
  let next := if s.bus.flag fseqB 0 then Nat.max old (s.bus.firstFrame now) else old
  let skipped := (List.range (next - old)).map (fun i => old + i)
  let s := skipped.foldl (fun s f => (s.emptyBatch f (some 0x23) false).unfit f 0x23) s
  let s := { s with fseq := { s.fseq with
    openFrames := s.fseq.openFrames.filter (fun x => !x.abandoned)
    ctxs := s.fseq.ctxs.filter (fun c => !(gone.any (fun x => x.frame = c.2.frame)))
    resync := [], next := s.fseq.next.map (fun _ => next), fresh := true } }
  s.setRunning

/-- R145 step 3: every write of the abandoned frames has been performed. -/
def State.drained (s : State) : Bool :=
  s.fseq.ctxs.all (fun c => (match s.fseq.frame c.2.frame with | some x => !x.abandoned | none => true)
    || (decide (c.2.tags = []) && decide (c.2.owed = [])))

/-- R145 RESYNC_DRAINED. -/
def runResyncDrained (now : Nat) (s : State) : Host.Outcome State Fault Refusal :=
  .next (s.main fun s => if s.fseq.resync = [] ∨ s.drained = false then s else (s.at now).resynchronise now)

/-- R373: a HIST_WRITE task reissued from its first step, once. -/
def execHistWriteReissue (u : UnitId) (p : Fin 2) (s : State) : Host.Outcome State Fault Refusal :=
  .next (s.main fun s =>
    if (u, p) ∈ s.fseq.reissue then
      let s := { s with fseq := { s.fseq with reissue := s.fseq.reissue.filter (fun k => decide (k ≠ (u, p))) } }
      let s := s.dropDue u p
      match s.ctx u p with
      | none => s
      | some x =>
        let s := s.setCtx u p { x with
          step := 0, loops := [], claims := [], loaded := [0, 0, 0, 0], stopped := false, reissued := true }
        if x.entry.monitorEn then s.emit (.restartToken x.entry.monitor (x.frame % 65536)) else s
    else s)

-- The spare station (R146 to R148, R466) -----------------------------------------------------------------------------------------------------------

/-- R147: the spare station is free: some frame is open whose spare it is, and no task of an open frame is admitted to it. -/
def State.spareFree (s : State) : Bool :=
  s.fseq.openFrames.any (fun x => decide (x.spare = s.bus.spare))
    && !(s.fseq.ctxs.any (fun c => match c.1.1 with | .stn i => decide (i.val = s.bus.spare) | _ => false))

/-- R147: BIST_WINDOW in ns. -/
def Bus.bistWindowNs (b : Bus) : Nat := Nat.min 2000 (b.field (fseqB + 0x2C) 10 0) * 1000

/-- R152: DTI in ns. -/
def Bus.dtiNs (b : Bus) : Nat := (if b.field (fseqB + 0x2C) 31 16 = 0 then 1000 else b.field (fseqB + 0x2C) 31 16) * 1000000

/-- R152: ELAPSED: the ms since the spare's first window. -/
def State.spareElapsed (s : State) (now : Nat) : Nat :=
  match s.fseq.spareFirst with
  | some t => Nat.min 65535 ((now - t) / 1000000)
  | none => 0

/-- R147: a window of the spare's test opens. -/
def execBistWindowOpen (now : Nat) (s : State) : Host.Outcome State Fault Refusal :=
  .next (s.main fun s =>
    let period := s.bus.frameOf now
    if s.fseq.spareDone || s.bus.flag (fseqB + 0x30) 5 || !s.spareFree || decide (s.fseq.windowFrame = period) then s
    else
      let s := s.at now
      let first := s.fseq.spareFirst.isNone
      let s := { s with fseq := { s.fseq with
        spareFirst := some (s.fseq.spareFirst.getD now), windowEnd := some (now + s.bus.bistWindowNs), windowFrame := period } }
      let s := s.onBus (fun b =>
        (b.setFlag (fseqB + 0x30) 5 true).setField (fseqB + 0x30) 15 8 (Nat.min 255 (b.field (fseqB + 0x30) 15 8 + 1)))
      let s := if first then s.emit (.bistToken s.bus.spare .start) else s
      s)

/-- R147: the window ends and the test is cut. -/
def execBistWindowEnd (now : Nat) (s : State) : Host.Outcome State Fault Refusal :=
  .next (s.main fun s =>
    match s.fseq.windowEnd with
    | none => s
    | some t => if s.bus.flag (fseqB + 0x30) 5 && decide (t ≤ now) then (s.at now).cutWindow else s)

/-- R341, R369: a cause to be taken at the next frame boundary; the lower code stands. -/
def State.causeAtBoundary (s : State) (c : Nat) : State :=
  { s with sd := { s.sd with pendingCause := some (match s.sd.pendingCause with | some d => Nat.min c d | none => c) } }

/-- R148: the spare's test has not completed within DTI of its first window. -/
def execBistOverdue (now : Nat) (s : State) : Host.Outcome State Fault Refusal :=
  .next (s.main fun s =>
    match s.fseq.spareFirst with
    | none => s
    | some t =>
      if s.fseq.spareDone || decide (now < t + s.bus.dtiNs) then s
      else
        let s := (s.at now).onBus (·.raise (fseqB + 4) 28)
        s.onSd (fun s => s.causeAtBoundary 3))

/-- R148, R466: the spare's test completes: result, tokens, and a failure reported to the Junesha die. -/
def execSpareTestDone (r : BistResult) (now : Nat) (s : State) : Host.Outcome State Fault Refusal :=
  .next (s.main fun s =>
    if s.bus.flag (fseqB + 0x30) 5 = false ∨ s.fseq.spareDone = true then s
    else
      let n := s.bus.spare
      let pass := s.bistPassed 14 r
      let s := (s.at now).testedStation n
      let s := { s with
        fseq := { s.fseq with spareDone := true }
        mgmt := { s.mgmt with stationResults := aset s.mgmt.stationResults n (bistRecord pass r false) } }
      let s := s.onBus (fun b => (b.setFlag (fseqB + 0x30) 5 false).inc (fseqB + 0x218))
      let s := (s.emit (.bistToken n .complete)).emit (.bistToken n (if pass then .pass else .fail))
      if pass then s else s.onSd (fun s => s.causeAtBoundary 3))

-- RUN, LOAD and the background CRC ---------------------------------------------------------------------------------------------------------------------

/-- R136, R152: RUN set: refused with no valid book; frames open from the first whose window starts at least 1 ms later. -/
def State.setRun (s : State) (now : Nat) : State :=
  if s.bus.flag (fseqB + 4) 1 = false then s.onBus (·.fseqErr)
  else if s.bus.flag fseqB 0 then s
  else
    { s.onBus (fun b => (b.setFlag fseqB 0 true).setReg (smeB + 0x20) 0) with
      fseq := { s.fseq with next := some (s.bus.firstFrame (now + 1000000)), fresh := true } }

/-- R152 RUN_SET. -/
def execRunSet (now : Nat) (s : State) : Host.Outcome State Fault Refusal := .next (s.main fun s => (s.at now).setRun now)

/-- R152 RUN_CLEAR. -/
def execRunClear (s : State) : Host.Outcome State Fault Refusal := .next (s.main fun s => s.onBus (·.setFlag fseqB 0 false))

/-- R126: a background pass over the book: a mismatch stops frame opening and enters the safe state with cause 0x04. -/
def execCrcPass (s : State) : Host.Outcome State Fault Refusal :=
  .next (s.main fun s =>
    match s.fseq.book with
    | none => s
    | some k =>
      if s.bus.flag fseqB 0 = false then s
      else
        let s := s.onBus (·.inc (fseqB + 0x21C))
        if bookCrc s.bus k.length = k.crc.toNat then s
        else
          let s := { s.onBus (·.raise (fseqB + 4) 29) with fseq := { s.fseq with corrupt := true } }
          s.trip 4 false)

end Sys2Proof.Machine
end

