-- ==== Sys2Proof/Machine/Unified.lean ====
section
/-! DEFINITION. Unified memory and synchronisation commands: sync operations (R105), the forced port cycle (R97), arbiter aging (R117)
and the port map (R119). -/

namespace Sys2Proof.Machine

/-- R105 ADD. -/
def execSyncAdd (obj : Fin 16384) (n : BitVec 24) (s : State) : Host.Outcome State Fault Refusal :=
  .next (s.main fun s => s.onBus (·.add obj.val n.toNat))

/-- R105 SET. -/
def execSyncSet (obj : Fin 16384) (n : BitVec 24) (s : State) : Host.Outcome State Fault Refusal :=
  .next (s.main fun s => s.onBus (·.set obj.val n.toNat))

/-- R102: an error in granule `g` of unified memory: corrected and counted, or the granule poisoned. -/
def Bus.umUpset (b : Bus) (g : Nat) (double : Bool) : Bus :=
  let u := umUnit (8 * g)
  if double then ({ b with poison := nins b.poison g }.inc (u + 0x8224)).raise (u + 0x8004) 26 else b.inc (u + 0x8220)

/-- R82, R90, R91: an error in granule `g` of HBM or of its line in the history cache. -/
def Bus.hbmUpset (b : Bus) (g : Nat) (double : Bool) : Bus :=
  if double then ({ b with poison := nins b.poison g }.inc (hcB + 0x418)).raise (hcB + 4) 30 else b.inc (hcB + 0x414)

/-- R82, R102, R412, R434: what a random fault of the hardware does. A packet whose CRC fails is answered with a negative
acknowledgement. -/
def Bus.upset (b : Bus) : Upset → Bus
  | .memory g double =>
    match placeLocal b.variant (8 * g) with
    | .um => b.umUpset g double
    | .hbm => b.hbmUpset g double
    | .intake => if double then { b with poison := nins b.poison g } else b
    | _ => b
  | .kydCrc k => (b.inc (kydB k.val + 0x108)).emit (.kydNak k.val)
  | .fecCorr k n => b.bump (kydB k.val + 0x110) n
  | .fecUncorr k => ((b.inc (kydB k.val + 0x114)).inc (kydB k.val + 0x108)).emit (.kydNak k.val)

/-- One tick's random fault, if any. -/
def State.upsets (s : State) : State :=
  s.main fun s => s.onBus (fun b => { (match Config.upset b.free with | some u => b.upset u | none => b) with free := b.free + 1 })

/-- R118: the register block of slice or commons number `u` (0 to 31 slices, 32 to 35 commons). -/
def umB (u : Fin 36) : Nat := if u.val < 32 then stnB u.val else qdspB (u.val - 32)

/-- R97: after 64 consecutive cycles without a free port cycle the fabric access takes the next one, counted in FAB_FORCE. -/
def execFabForce (u : Fin 36) (waited : Nat) (s : State) : Host.Outcome State Fault Refusal :=
  .next (s.main fun s => if waited < 64 then s else s.onBus (·.inc (umB u + 0x8208)))

/-- R120: the AGE_LIMIT of an arbiter: below 64 it acts as 64. -/
def Bus.ageLimit (b : Bus) (arb : Fin 4) : Nat := Nat.max 64 (b.field (fabB + 0x10 + 4 * arb.val) 15 0)

/-- R117: a normal request that has waited longer than AGE_LIMIT is promoted, and counted. -/
def execAgePromote (arb : Fin 4) (waited : Nat) (s : State) : Host.Outcome State Fault Refusal :=
  .next (s.main fun s => s.onBus (fun b => if b.ageLimit arb < waited then b.inc (fabB + 0x100 + 4 * arb.val) else b))

/-- R119: a task of some open frame is admitted and has not completed. -/
def FrameSeq.anyAdmitted (q : FrameSeq) : Bool := q.openFrames.any (fun x => x.admitted.any (fun t => !(x.done.contains t)))

/-- R119: UM_PORTMAP written: taken while no task is admitted; a slice has no NARROW_HI. -/
def State.writePortmap (s : State) (u : Fin 36) (v : Nat) : State :=
  s.onBus (fun b =>
    if s.fseq.anyAdmitted then b.raise (umB u + 0x8004) 25
    else b.setReg (umB u + 0x8000) (if u.val < 32 then v % 2 ^ 16 else v))

/-- R119 UM_PORTMAP_WRITE. -/
def execUmPortmapWrite (u : Fin 36) (v : Word) (s : State) : Host.Outcome State Fault Refusal :=
  .next (s.main fun s => s.writePortmap u v.toNat)

end Sys2Proof.Machine
end

