-- ==== Sys2Proof/Machine/Calib.lean ====
section
/-! DEFINITION. The Closure Engine (R308 to R313) and live calibration: submitting, writing, applying and withdrawing an update (R314
to R316), and the calibration in force (R304). -/

namespace Sys2Proof.Machine

-- Accumulation (R310, R311) -----------------------------------------------------------------------------------------------------

/-- R308: a closure record. -/
structure Closure where
  x : Int
  y : Int
  z : Int
  nx : Int
  ny : Int
  nz : Int
  slice : Nat
  d : Int
  sb : Nat
  sa : Nat
  w : Nat
  valid : Bool
  deriving DecidableEq, Repr

/-- R308. -/
def decodeClosure (bs : List Byte) : Closure :=
  { x := sfld bs 0 4, y := sfld bs 4 4, z := sfld bs 8 4, nx := sfld bs 0x0C 2, ny := sfld bs 0x0E 2, nz := sfld bs 0x10 2,
    slice := fld bs 0x12 2, d := sfld bs 0x14 4, sb := fld bs 0x18 1, sa := fld bs 0x19 1, w := fld bs 0x1A 2,
    valid := bit (fld bs 0x1C 1) 0 }

/-- What a record does (R310): skipped, gated for its sensor B, or accumulated with Jacobian, residual and weight. -/
inductive Closed where
  | skipped
  | gated
  | used (j : List Nat) (r w : Nat)
  deriving DecidableEq, Repr

/-- R309: the pose of slice `k` of frame `f`, where its bank still holds that frame. -/
def Calib.slicePose (c : Calib) (f k : Nat) : Option FPose :=
  let b := if f % 2 = 0 then c.bank0 else c.bank1
  if b.frame = f then (alook b.poses k).join else none

/-- R321: GATE in mm. -/
def Bus.gate (b : Bus) : Nat := if b.field (cleB + 8) 15 0 = 0 then 200 else b.field (cleB + 8) 15 0

/-- R310: one record, in binary64. `slices` is the frame's S; `tb` is the translation of the active entry of sensor B. -/
def closeRecord (gate slices : Nat) (pose : Option FPose) (tb : Xform) (c : Closure) : Closed :=
  let f := fmt64
  let m4 (i : Int) : Nat := fofRatio f i 4000
  match pose with
  | none => .skipped
  | some p =>
    if c.valid = false ∨ c.sa = c.sb ∨ slices ≤ c.slice ∨ (c.nx = 0 ∧ c.ny = 0 ∧ c.nz = 0) then .skipped
    else
      let n0 : V3 := { x := fofDyadic f c.nx 15, y := fofDyadic f c.ny 15, z := fofDyadic f c.nz 15 }
      let len := v3norm f n0
      let n : V3 := { x := fdiv f n0.x len, y := fdiv f n0.y len, z := fdiv f n0.z len }
      let x : V3 := { x := m4 c.x, y := m4 c.y, z := m4 c.z }
      let r := fsub f (fdot f n x) (m4 c.d)
      if flt f (fofRatio f gate 1000) (fabs f r) then .gated
      else
        let g := p.rigid f 4000
        let m := g.invApply f x
        let nm := mapplyT f g.r n
        let b : V3 := { x := m4 tb.tx, y := m4 tb.ty, z := m4 tb.tz }
        let k := v3cross f (v3sub f m b) nm
        .used [k.x, k.y, k.z, nm.x, nm.y, nm.z] r (fofDyadic f c.w 12)

/-- The pairs (i, j), i ≤ j, of the upper triangle, row by row (R313). -/
def triangle : List (Nat × Nat) := (List.range 6).flatMap (fun i => (List.range (6 - i)).map (fun k => (i, i + k)))

/-- R310 step 5. -/
def Accum.use (a : Accum) (frame : Nat) (j : List Nat) (r w : Nat) : Accum :=
  let f := fmt64
  let up (v : BitVec 64) (x : Nat) : BitVec 64 := BitVec.ofNat 64 (fadd f v.toNat x)
  let wj (i : Nat) : Nat := fmul f w (j.getD i 0)
  { count := Nat.min (a.count + 1) 0xFFFFFFFF, gated := a.gated, first := if a.count = 0 then frame else a.first, last := frame,
    sumW := up a.sumW w, sumWr2 := up a.sumWr2 (fmul f w (fmul f r r)),
    g := a.g.mapIdx (fun i v => up v (fmul f (wj i) r)),
    a := a.a.mapIdx (fun i v => match triangle[i]? with
      | some (x, y) => up v (fmul f (wj x) (j.getD y 0))
      | none => v) }

/-- One record counted and added to the sets: counters RECORDS, SKIPPED, GATED of R321. -/
def foldRecord (frame : Nat) (q : List Accum × Bus) (sb : Nat) (c : Closed) : List Accum × Bus :=
  let b := q.2.inc (cleB + 0x100)
  match c with
  | .skipped => (q.1, b.inc (cleB + 0x104))
  | .gated => (modAt (fun a => { a with gated := Nat.min (a.gated + 1) 0xFFFFFFFF }) q.1 sb, b.inc (cleB + 0x108))
  | .used j r w => (modAt (fun a => a.use frame j r w) q.1 sb, b)

/-- R309: S of frame `f`. -/
def Calib.slicesOf (c : Calib) (f : Nat) : Nat :=
  let b := if f % 2 = 0 then c.bank0 else c.bank1
  if b.frame = f then b.slices else 0

/-- R304: the active entry `e` as latched for frame `f`. -/
def State.activeOf (s : State) (f e : Nat) : Xform :=
  match s.intake.latches.find? (fun l => l.frame = f) with
  | some l => ({ s.bus with regs := l.regs } : Bus).xform (activeAt e)
  | none => s.bus.xform (activeAt e)

/-- R310, R311, R375: the records of a CL_ACCUM step accumulated: into the pending set of the frame's parity under rollback. -/
def State.accumulate (s : State) (f : Nat) (recs : List (List Byte)) : State :=
  let s := if s.fseq.rollback then s else s.restartCal f (s.calSeqOf f)
  let slices := s.calib.slicesOf f
  let gate := s.bus.gate
  let start := if s.fseq.rollback then
      (List.range 16).map (fun i => (alook (if f % 2 = 0 then s.calib.pend0 else s.calib.pend1) i).getD {})
    else s.calib.accs
  let r := recs.foldl (fun q bs =>
    let c := decodeClosure bs
    foldRecord f q c.sb (closeRecord gate slices (s.calib.slicePose f c.slice) (s.activeOf f c.sb) c)) (start, s.bus)
  let pend := r.1.zipIdx.map (fun x => (x.2, x.1))
  { s with
    bus := r.2
    calib := if s.fseq.rollback then (if f % 2 = 0 then { s.calib with pend0 := pend } else { s.calib with pend1 := pend })
      else { s.calib with accs := r.1 } }

/-- R321: a CLE step: waits while ENABLE = 0. -/
def cleOp (op : Nat) (pre : StepEnv → List Nat) (accs : StepEnv → List Acc) (eff : StepEnv → State → Done)
    (zero : StepEnv → State → State) : UnitOp :=
  { sel := fun d => d.unit = 8 && d.op = op
    ready := fun _ s => s.bus.flag cleB 0
    pre := fun e _ => pre e
    accs := fun e _ => accs e
    eff := eff
    zero := zero }

/-- The records of a CL_ACCUM step as read. -/
def closureBytes (e : StepEnv) (b : Bus) : Got × List (List Byte) :=
  let g := b.fetch (e.base 0) (32 * e.dim 0)
  (g, (List.range (e.dim 0)).map (fun i => sub g.bytes (32 * i) 32))

/-- R310 CL_ACCUM: `n` is DIM0. -/
def accumEff (e : StepEnv) (s : State) : Done :=
  let r := closureBytes e s.bus
  if r.1.busErr then { s := s.onBus (·.raise (cleB + 4) 31), codes := [0x08], signals := false }
  else
    { s := s.accumulate e.x.frame r.2, codes := if r.1.poisoned then [0x11] else [] }

/-- R312 CL_ACCUM: what the step does. -/
def opClAccum : UnitOp :=
  cleOp 1 (fun e => if 1048576 < e.dim 0 then [0x0B] else [])
    (fun e => [{ opnd := 0, write := false, narrow := false, ranges := [(0, 32 * e.dim 0)] }]) accumEff
    (fun e s => s.accumulate e.x.frame [])

/-- R312 CL_ACCUM. -/
def runClAccum (p : Fin 2) (s : State) : Host.Outcome State Fault Refusal :=
  .next (runStep .cle p opClAccum s)

/-- R313: the 256 bytes of an accumulator. -/
def accumBytes (seq : Nat) (a : Accum) : List Byte :=
  let d (v : BitVec 64) : List Byte := leBytes 8 v.toNat
  let body := leBytes 4 a.count ++ leBytes 4 a.gated ++ leBytes 4 a.first ++ leBytes 4 a.last ++ d a.sumW ++ d a.sumWr2
    ++ (a.g.map d).flatten ++ (a.a.map d).flatten ++ leBytes 4 seq
  body ++ leBytes 4 (crc32c body)

/-- R313: the accumulators written at OPND2, and zeroed with CLEAR. -/
def snapshotEff (e : StepEnv) (s : State) : Done :=
  let seq := s.bus.reg (cleB + 0x18)
  let w := stepWrite e s.bus 2 (e.base 2) ((s.calib.accs.map (accumBytes seq)).flatten) e.x.taint
  let clear := bit (e.dim 1) 0
  let s := { s with
    bus := if w.2 = .done then w.1.inc (cleB + 0x110) else w.1.raise (cleB + 4) 31
    calib := if clear && decide (w.2 = .done) then { s.calib with accs := List.replicate 16 {} } else s.calib }
  { s := s, codes := w.2.codes, signals := w.2 = .done }

/-- R312 CL_SNAPSHOT: DIM0 is not used. -/
def snapshotStep (_e : StepEnv) : List Acc := [{ opnd := 2, write := true, narrow := false, ranges := [(0, 4096)] }]

/-- R312 CL_SNAPSHOT: what the step does. -/
def opClSnapshot : UnitOp :=
  cleOp 2 (fun _ => []) snapshotStep snapshotEff (fun _ s => s)

/-- R312 CL_SNAPSHOT. A step whose resolved DIM0 is 0 does not access memory (R129). -/
def runClSnapshot (p : Fin 2) (s : State) : Host.Outcome State Fault Refusal :=
  .next (runStep .cle p opClSnapshot s)

-- Updates (R314 to R316) -----------------------------------------------------------------------------------------------------------

/-- The staging area's bytes. -/
def Bus.stage (b : Bus) : List Byte := ((List.range 264).map (fun i => leBytes 4 (b.reg (cleB + 0x1000 + 4 * i)))).flatten

/-- R314: a staged entry. -/
def stagedEntry (bs : List Byte) (e : Nat) : Xform :=
  let s (i : Nat) : Int := sfld bs (0x20 + 32 * e + 4 * i) 4
  { tx := s 0, ty := s 1, tz := s 2, qw := s 3, qx := s 4, qy := s 5, qz := s 6 }

/-- R314: the entries that an update replaces. -/
def stagedMask (bs : List Byte) : List Nat := (List.range 32).filter (fun e => bit (fld bs 4 4) e)

/-- R316: the rotation between two quaternions passes the limit θ (millidegrees): |q · q′| ≥ cos(θ / 2), in binary64. -/
def rotWithin (a b : Xform) (mdeg : Nat) : Bool :=
  let f := fmt64
  let q (x : Xform) : Quat := qunit f { w := fofDyadic f x.qw 30, x := fofDyadic f x.qx 30, y := fofDyadic f x.qy 30,
                                        z := fofDyadic f x.qz 30 }
  let half := fdiv f (fmul f (fofInt f mdeg) 0x400921FB54442D18) (fofInt f 360000)
  fle f (ftrig f false half) (fabs f (qdot f (q a) (q b)))

/-- R316: the translation passes the limit L (mm). -/
def transWithin (a b : Xform) (mm : Nat) : Bool :=
  let dx := a.tx - b.tx
  let dy := a.ty - b.ty
  let dz := a.tz - b.tz
  decide (dx * dx + dy * dy + dz * dz ≤ ((4 * mm) * (4 * mm) : Nat))

/-- R316: the first refusal code, 0 where the update is granted. -/
def State.submitCode (s : State) : Nat :=
  let bs := s.bus.stage
  let es := stagedMask bs
  let free := decide (s.sd.state = .commission)
  let reservedOk := (sub bs 8 20).all (fun v => decide (v = 0))
    && (List.range 32).all (fun e => decide (fld bs (0x20 + 32 * e + 28) 4 = 0))
  let act (e : Nat) : Xform := s.bus.xform (activeAt e)
  let com (e : Nat) : Xform := s.bus.xform (commAt e)
  if crc32c (sub bs 0 0x1C ++ zeros 4 ++ bs.drop 0x20) ≠ fld bs 0x1C 4 ∨ reservedOk = false then 1
  else if fld bs 0 4 ≤ s.bus.reg (cleB + 0x10) then 2
  else if es.any (fun e => !(stagedEntry bs e).normOk) then 3
  else if !free && es.any (fun e => !(rotWithin (stagedEntry bs e) (act e) (s.safeNat 0x510001))) then 4
  else if !free && es.any (fun e => !(transWithin (stagedEntry bs e) (act e) (s.safeNat 0x510002))) then 5
  else if !free && es.any (fun e => !(rotWithin (stagedEntry bs e) (com e) (s.safeNat 0x510003))) then 6
  else if !free && es.any (fun e => !(transWithin (stagedEntry bs e) (com e) (s.safeNat 0x510004))) then 7
  else if !free && s.calib.everApplied && decide (s.calib.openedSince < s.safeNat 0x510005) then 8
  else match s.sd.state with
    | .boot => 10
    | .selftest => 10
    | .safe => 10
    | .off => 10
    | _ => 0

/-- R315: a write refused while an update is granted or pending. -/
def Bus.calRefuse (b : Bus) : Bus := b.inc (cleB + 0x120)

/-- R315: GRANTED or APPLY_PENDING. -/
def Bus.calBusy (b : Bus) : Bool := b.flag (cleB + 4) 0 || b.flag (cleB + 4) 1

/-- R315 steps 1 and 2: the update checked; one that is granted is written to the inactive configuration copy. -/
def State.submitCal (s : State) : State :=
  if s.bus.calBusy then s.onBus (·.calRefuse)
  else
    match s.submitCode with
    | 0 => { s.onBus (fun b => { (b.setFlag (cleB + 4) 0 true).inc (cleB + 0x114) with late := b.late ++ [.calCopy] }) with
             calib := { s.calib with grantState := s.sd.state.code } }
    | c => s.onBus (fun b => ((b.note (cleB + 0x118) (cleB + 4) 30).setField (cleB + 4) 19 16 c))

/-- R315: the calibration record in force: of the valid slots, the one of higher sequence. -/
def Sd.calNow (d : Sd) : CalRec :=
  if d.calRec0.valid && d.calRec1.valid then (if d.calRec0.seq < d.calRec1.seq then d.calRec1 else d.calRec0)
  else if d.calRec0.valid then d.calRec0 else if d.calRec1.valid then d.calRec1 else {}

/-- R315: the slot that is not in force written. -/
def Sd.putCalRec (d : Sd) (r : CalRec) : Sd :=
  if d.calRec0.valid && decide (d.calNow = d.calRec0) then { d with calRec1 := r } else { d with calRec0 := r }

/-- R315 step 3: APPLY starts the write of the Junesha die's flash record, in the slot not in force; until it ends that slot is not
valid. -/
def State.applyCal (s : State) : State :=
  if s.bus.flag (cleB + 4) 0 then { s with calib := { s.calib with writing := true }, sd := s.sd.putCalRec {} } else s.onBus (·.calRefuse)

/-- R315: WITHDRAW. -/
def State.withdrawCal (s : State) : State := if s.bus.flag (cleB + 4) 1 then s else s.dropGrant

/-- The active table's 1,024 bytes, or those after a staged update. -/
def Bus.calBytes (b : Bus) (new : Option (List Byte)) : List Byte :=
  ((List.range 32).map (fun e =>
    match new with
    | some bs => if (stagedMask bs).contains e then sub bs (0x20 + 32 * e) 32
        else ((List.range 8).map (fun i => leBytes 4 (b.reg (activeAt e + 4 * i)))).flatten
    | none => ((List.range 8).map (fun i => leBytes 4 (b.reg (activeAt e + 4 * i)))).flatten)).flatten

/-- R315: the flash record is written: APPLY_PENDING set, GRANTED cleared. -/
def State.calWritten (s : State) (now : Nat) : State :=
  if s.calib.writing = false then s
  else
    let bs := s.bus.stage
    { s.onBus (fun b => (b.setFlag (cleB + 4) 0 false).setFlag (cleB + 4) 1 true) with
      calib := { s.calib with writing := false, pendingAt := some now }
      sd := s.sd.putCalRec { valid := true, seq := s.sd.calNow.seq + 1, calSeq := BitVec.ofNat 32 (fld bs 0 4),
                             crc := BitVec.ofNat 32 (crc32c (s.bus.calBytes (some bs))) } }

/-- R304, R315: at the opening of frame `f`'s window, an update pending for at least 1 ms enters the active table. -/
def State.calAtWindow (s : State) (f now : Nat) : State :=
  match s.calib.pendingAt with
  | none => { s with calib := { s.calib with openedSince := s.calib.openedSince + 1 } }
  | some t =>
    if now < t + 1000000 then { s with calib := { s.calib with openedSince := s.calib.openedSince + 1 } }
    else
      let bs := s.bus.stage
      { s.onBus (fun b =>
          let b := (stagedMask bs).foldl (fun b e => b.setXform (activeAt e) (stagedEntry bs e)) b
          ((((b.setReg (cleB + 0x10) (fld bs 0 4)).setReg (cleB + 0x14) f).setFlag (cleB + 4) 1 false).inc (cleB + 0x11C))) with
        calib := { s.calib with
          pendingAt := none, openedSince := 0, everApplied := true,
          changed := s.calib.changed || decide (s.sd.state = .commission) } }

/-- R315 SUBMIT. -/
def runSubmit (s : State) : Host.Outcome State Fault Refusal := .next (s.main State.submitCal)

/-- R315 APPLY. -/
def execApply (s : State) : Host.Outcome State Fault Refusal := .next (s.main State.applyCal)

/-- R315 WITHDRAW. -/
def execWithdraw (s : State) : Host.Outcome State Fault Refusal := .next (s.main State.withdrawCal)

end Sys2Proof.Machine
end

