-- ==== Sys2Proof/Machine/Packets.lean ====
section
/-! DEFINITION. Lidar packets: decode templates and their checks (R35 to R37), and the points of a packet (R38, R39). The SIEs and
the checker channel share it (R325). -/

namespace Sys2Proof.Machine

/-- R36: a field descriptor. -/
structure FieldD where
  signed : Bool
  big : Bool
  width : Nat
  pos : Nat
  off : Nat
  scale : Nat
  deriving DecidableEq, Repr

/-- R36: the descriptor a 64-bit word holds, none where EN is 0. -/
def decodeFd (w : Nat) : Option FieldD :=
  if bit w 63 then
    some { signed := bit w 62, big := bit w 61, width := bits w 60 56 + 1, pos := bits w 55 51, off := bits w 50 40, scale := bits w 31 0 }
  else none

/-- R35: a decode template. `fds` are the ten descriptors in the order of the table. -/
structure Tmpl where
  udpPort : Nat
  pktLen : Nat
  mode : Nat
  timeSrc : Nat
  blocks : Nat
  points : Nat
  blockOff : Nat
  blockStride : Nat
  pointOff : Nat
  pointStride : Nat
  fds : List (Option FieldD)
  pointDt : Nat
  ingressLat : Nat
  angleBase : Nat
  valid : Nat
  deriving DecidableEq, Repr

/-- R35: the template its 128 bytes hold. -/
def decodeTmpl (bs : List Byte) : Tmpl :=
  { udpPort := fld bs 0 2, pktLen := fld bs 2 2, mode := fld bs 4 1, timeSrc := fld bs 5 1, blocks := fld bs 6 1, points := fld bs 7 1,
    blockOff := fld bs 8 2, blockStride := fld bs 10 2, pointOff := fld bs 12 2, pointStride := fld bs 14 2,
    fds := tab 10 (fun i => decodeFd (fld bs (0x10 + 8 * i) 8)), pointDt := fld bs 0x60 4, ingressLat := fld bs 0x64 4,
    angleBase := fld bs 0x68 2, valid := fld bs 0x6A 1 }

/-- R35: descriptor `i` of the table, where present. -/
def Tmpl.fd (t : Tmpl) (i : Nat) : Option FieldD := t.fds.getD i none

/-- R37: why a template whose VALID is not 0 is refused. -/
def Tmpl.refused (t : Tmpl) : Bool :=
  t.valid ≠ 0 &&
    (t.valid ≠ 1 || !(decide (1 ≤ t.blocks ∧ t.blocks ≤ 64)) || !(decide (1 ≤ t.points ∧ t.points ≤ 256))
      || decide (1 < t.mode) || decide (1 < t.timeSrc)
      || t.fds.zipIdx.any (fun x => match x.1 with
          | none => false
          | some d => decide (64 < d.pos + d.width) || (x.2 ≠ 0 && x.2 ≠ 9 && !(fval fmt32 d.scale).isFinite))
      || (t.mode = 0 && decide (4095 < t.angleBase + t.points - 1))
      || (if t.mode = 0 then [5, 3] else [5, 6, 7]).any (fun i => (t.fd i).isNone)
      || (t.timeSrc = 0 && ([0, 1].any (fun i => (t.fd i).isNone))))

/-- R37, R38: a template that decodes packets. -/
def Tmpl.usable (t : Tmpl) : Bool := t.valid = 1 && !t.refused

/-- R38: the bytes, from the field's start, that hold its bits: first and last. -/
def FieldD.span (d : FieldD) : Nat × Nat :=
  let lo := d.pos / 8
  let hi := (d.pos + d.width - 1) / 8
  if d.big then (d.off + 7 - hi, d.off + 7 - lo) else (d.off + lo, d.off + hi)

/-- R36, R38: the field's bits in the assembled word; bytes beyond the payload are taken as 0. -/
def FieldD.bitsAt (d : FieldD) (p : List Byte) (base : Nat) : Nat :=
  let w := if d.big then bfld p (base + d.off) 8 else fld p (base + d.off) 8
  w / 2 ^ d.pos % 2 ^ d.width

/-- R36: the raw value. -/
def FieldD.raw (d : FieldD) (p : List Byte) (base : Nat) : Int :=
  if d.signed then sext d.width (d.bitsAt p base) else (d.bitsAt p base : Int)

/-- R39: raw value × SCALE in REAL32. -/
def FieldD.real (d : FieldD) (p : List Byte) (base : Nat) : Nat := fmul fmt32 (fofInt fmt32 (d.raw p base)) d.scale

/-- R39: an optional real field; absent gives 0. -/
def realOf (d : Option FieldD) (p : List Byte) (base : Nat) : Nat :=
  match d with
  | some d => d.real p base
  | none => 0

/-- R39: a time term in whole ns: none where it is not finite or reaches 2^62. -/
def timeTerm (d : Option FieldD) (p : List Byte) (base : Nat) : Option Int :=
  match d with
  | none => some 0
  | some d =>
    match (fval fmt32 (d.real p base)).toIntRne with
    | some t => if t.natAbs < 2 ^ 62 then some t else none
    | none => none

/-- R39: intensity rounded to nearest and saturated; NaN gives 0. -/
def intensityOf (v : Nat) : Nat :=
  match fval fmt32 v with
  | .nan => 0
  | .inf neg => if neg then 0 else 255
  | x => match x.toIntRne with
    | some i => if i < 0 then 0 else Nat.min i.toNat 255
    | none => 0

/-- A decoded point (R39, R50): the raw range bits, the sensor-frame range and coordinates as REAL32 codes, and the bytes that R366
compares (range, then intensity). -/
structure DecPt where
  t : Int
  raw : Nat
  range : Nat
  x : Nat
  y : Nat
  z : Nat
  intensity : Nat
  ret : Int
  sig : List Byte
  deriving DecidableEq, Repr

/-- R39: 2π / 65,536 as REAL32. -/
def angleUnit : Nat := 0x38C90FDB

/-- R39: cosine and sine of a REAL32 angle. -/
def cos32 (a : Nat) : Nat := ftrig fmt32 false a
def sin32 (a : Nat) : Nat := ftrig fmt32 true a

/-- R39: sensor-frame coordinates (x, y, z) and range of a point. -/
def Tmpl.coords (t : Tmpl) (angle : Nat → Nat) (p : List Byte) (blk pt i : Nat) : Nat × Nat × Nat × Nat :=
  let r := realOf (t.fd 5) p pt
  if t.mode = 0 then
    let w := angle (t.angleBase + i)
    let el := fmul fmt32 (fofInt fmt32 (sext 16 (w / 2 ^ 16))) angleUnit
    let az := fadd fmt32 (realOf (t.fd 3) p blk) (fmul fmt32 (fofInt fmt32 (sext 16 w)) angleUnit)
    let h := fmul fmt32 r (cos32 el)
    (fmul fmt32 h (cos32 az), fmul fmt32 h (sin32 az), fmul fmt32 r (sin32 el), r)
  else
    let y := realOf (t.fd 6) p pt
    let z := realOf (t.fd 7) p pt
    (r, y, z, fsqrt fmt32 (fadd fmt32 (fadd fmt32 (fmul fmt32 r r) (fmul fmt32 y y)) (fmul fmt32 z z)))

/-- R38: every byte of every enabled field of every block and point lies in the payload. -/
def Tmpl.fits (t : Tmpl) (len : Nat) : Bool :=
  let blk := t.blockOff + (t.blocks - 1) * t.blockStride
  let pt := blk + t.pointOff + (t.points - 1) * t.pointStride
  t.fds.zipIdx.all (fun x => match x.1 with
    | none => true
    | some d => decide ((if x.2 < 2 then 0 else if x.2 < 4 then blk else pt) + d.span.2 < len))

/-- R366: the raw bytes of the range and intensity fields of a point. -/
def Tmpl.sig (t : Tmpl) (p : List Byte) (pt : Nat) : List Byte :=
  ((if t.mode = 0 then [5, 8] else [5, 6, 7, 8]).map (fun i => match t.fd i with
    | some d => sub p (pt + d.span.1) (d.span.2 + 1 - d.span.1)
    | none => [])).flatten

/-- R39: point `i` of a block; without `timed` its time is the block's (R325). -/
def Tmpl.point (t : Tmpl) (timed : Bool) (angle : Nat → Nat) (p : List Byte) (blk : Nat) (tb : Int) (i : Nat) : Option DecPt :=
  let pt := blk + t.pointOff + i * t.pointStride
  match (if timed = false then some 0 else if (t.fd 4).isSome then timeTerm (t.fd 4) p pt else some ((i * t.pointDt : Nat) : Int)) with
  | none => none
  | some dt =>
    let c := t.coords angle p blk pt i
    some { t := tb + dt
           raw := match t.fd 5 with | some d => d.bitsAt p pt | none => 0
           range := c.2.2.2
           x := c.1
           y := c.2.1
           z := c.2.2.1
           intensity := intensityOf (realOf (t.fd 8) p pt)
           ret := match t.fd 9 with | some d => d.raw p pt | none => 0
           sig := t.sig p pt }

/-- All results, or none where one is missing. -/
def allSome {α : Type} : List (Option α) → Option (List α)
  | [] => some []
  | none :: _ => none
  | some x :: t => match allSome t with
    | some r => some (x :: r)
    | none => none

/-- R38, R39: the points of a packet in block and point order, or none: a decode error. `stamp` is the MAC ingress
stamp; without `timed` every point takes it (R325). -/
def Tmpl.packet (t : Tmpl) (timed : Bool) (angle : Nat → Nat) (p : List Byte) (stamp : Int) : Option (List DecPt) :=
  if t.usable = false ∨ (t.pktLen ≠ 0 ∧ p.length ≠ t.pktLen) ∨ t.fits p.length = false then none
  else
    let tp : Option Int :=
      if timed = false then some stamp
      else if t.timeSrc = 1 then some (stamp - t.ingressLat)
      else match timeTerm (t.fd 1) p 0, t.fd 0 with
        | some ns, some d => some (d.raw p 0 * 1000000000 + ns)
        | _, _ => none
    match tp with
    | none => none
    | some tp =>
      match allSome (tab t.blocks (fun b =>
          let blk := t.blockOff + b * t.blockStride
          match (if timed then timeTerm (t.fd 2) p blk else some 0) with
          | none => none
          | some tb => allSome (tab t.points (t.point timed angle p blk (tp + tb))))) with
      | some l => some l.flatten
      | none => none

end Sys2Proof.Machine
end

