-- ==== Sys2Proof/Machine/Intake.lean ====
section
/-! DEFINITION. Sweep intake (R31 to R66, R481, R482): the latch at a window's opening, staging on arrival, the pose ring, closing a
slice (compensation, filters, records, voxelisation, publication), and starting and stopping the SIEs. -/

namespace Sys2Proof.Machine

-- Notes and counters -------------------------------------------------------------------------------------------------------------

/-- The note of a frame. -/
def Intake.note (q : Intake) (f : Nat) : FrameNote := (q.notes.find? (fun n => n.frame = f)).getD { frame := f }

/-- A frame's note put in place. -/
def Intake.putNote (q : Intake) (n : FrameNote) : Intake :=
  { q with notes := if q.notes.any (fun x => x.frame = n.frame)
      then q.notes.map (fun x => if x.frame = n.frame then n else x) else q.notes ++ [n] }

/-- R62: DEGRADED set for frame `f`, with point and voxel drops of R56. -/
def State.sieDegrade (s : State) (f pointDrops voxelDrops : Nat) : State :=
  let n := s.intake.note f
  { s.degrade f with intake := s.intake.putNote { n with
      degraded := true, pointDrops := n.pointDrops + pointDrops, voxelDrops := n.voxelDrops + voxelDrops } }

/-- R61: counter `i` of sensor `k` in SIE `d`. -/
abbrev sieCnt (d k i : Nat) : Nat := sieB d + 0x8000 + 0x40 * k + 4 * i

/-- R61: a sensor counter advanced by `n`. -/
def State.sieCount (s : State) (d k i n : Nat) : State := s.onBus (·.bump (sieCnt d k i) n)

/-- The latch of a frame. -/
def Intake.latch (q : Intake) (f : Nat) : Option Latch := q.latches.find? (fun l => l.frame = f)

/-- The bus with the register file that a latch holds: reads of it give the latched values. -/
def Bus.latched (b : Bus) (l : Latch) : Bus := { b with regs := l.regs }

/-- R64: SIE `d` is present and enabled. -/
def State.sieOn (s : State) (d : Nat) : Bool := (decide (d = 0) || s.bus.variant.isX2) && s.bus.flag (sieB d) 0

-- The latch (R32, R34, R37, R41, R51, R63, R66, R72) -----------------------------------------------------------------------------------

/-- R35: template `t` of SIE `d`. -/
def Bus.tmpl (b : Bus) (d t : Nat) : Tmpl :=
  decodeTmpl ((tab 32 (fun i => leBytes 4 (b.reg (sieB d + 0x1000 + 0x80 * t + 4 * i)))).flatten)

/-- R63: SENSOR_BIND[k] of SIE `d`. -/
def Bus.bind (b : Bus) (d k : Nat) : Nat := b.reg (sieB d + 0x100 + 4 * k)

/-- R32: bindings `i` and `k` of SIE `d` overlap. -/
def Bus.bindOverlap (b : Bus) (d i k : Nat) : Bool :=
  let x := b.bind d i
  let y := b.bind d k
  let ux := (b.tmpl d (bits x 23 20)).udpPort
  let uy := (b.tmpl d (bits y 23 20)).udpPort
  bit x 31 && bit y 31 && decide (bits x 18 16 = bits y 18 16 ∧ bits x 15 0 = bits y 15 0 ∧ (ux = uy ∨ ux = 0 ∨ uy = 0))

/-- R32: the sensors whose bindings in SIE `d` are disabled. -/
def Bus.badBinds (b : Bus) (d : Nat) : List Nat :=
  (List.range 16).filter (fun k => bit (b.bind d k) 31 &&
    ((List.range k).any (fun i => b.bindOverlap d i k) || (decide (d = 1) && bit (b.bind 0 k) 31)))

/-- R37: the templates of SIE `d` refused. -/
def Bus.badTmpls (b : Bus) (d : Nat) : List Nat := (List.range 16).filter (fun t => (b.tmpl d t).refused)

/-- A mask with one bit for each number of the list. -/
def maskOf (l : List Nat) : Nat := lsum (l.map (fun k => 2 ^ k))

/-- R51, R66: an edge field that is allowed. -/
def edgeOk (e : Nat) : Bool := decide (e / 16 = 0 ∧ e % 8 ≠ 7) && !(e % 8 = 6 && bit e 3)

/-- R63: a limit from 1 to `top`, or the previous one with CFG_ERR. -/
def limitOr (v top prev : Nat) : Nat × Bool := if 1 ≤ v ∧ v ≤ top then (v, false) else (prev, true)

/-- R34: the values latched for frame `f`, `prev` those of the preceding frame, and the status bits that refusals set. -/
def Bus.latchFor (b : Bus) (prev : Latch) (f calSeq : Nat) : Latch × Bus :=
  let a := sieB 0
  let n := b.field (a + 0x70) 5 0
  let okLen := decide (1 ≤ n ∧ n ≤ 32 ∧ b.tf % (n * 250000) = 0)
  let e := b.field (a + 0x0C) 23 0
  let okEdge := edgeOk (e % 256) && edgeOk (e / 256 % 256) && edgeOk (e / 65536)
  let r := b.field (a + 0x0C) 25 24
  let vt := limitOr (b.reg (a + 0x10)) 4194304 prev.vtLimit
  let pt := limitOr (b.reg (a + 0x14)) 8388608 prev.ptLimit
  let h := limitOr (b.field (hcB + 0x0C) 10 0) 1024 prev.horizon
  let l : Latch :=
    { frame := f, regs := b.regs, sliceNs := if okLen then n * 250000 else prev.sliceNs,
      edges := if okEdge then BitVec.ofNat 24 e else prev.edges, rule := if r = 3 then prev.rule else r, vtLimit := vt.1,
      ptLimit := pt.1, badTmpl0 := b.badTmpls 0, badTmpl1 := b.badTmpls 1, badBind0 := b.badBinds 0, badBind1 := b.badBinds 1,
      horizon := h.1, calSeq := BitVec.ofNat 32 calSeq }
  let up (c : Bool) (x i : Nat) (b : Bus) : Bus := if c then b.raise x i else b
  let b := up (!okLen) (a + 4) 30 (up (!okEdge || decide (r = 3)) (a + 4) 29 (up (vt.2 || pt.2) (a + 4) 26 (up h.2 (hcB + 4) 31 b)))
  let b := (b.setReg (a + 0x6C) (maskOf l.badTmpl0)).setField (a + 4) 15 0 (maskOf l.badBind0)
  let b := if b.variant.isX2 then
      (b.setReg (sieB 1 + 0x6C) (maskOf l.badTmpl1)).setField (sieB 1 + 4) 15 0 (maskOf l.badBind1)
    else b
  (l, b)

/-- R34: the frame latched last before `f`. -/
def Intake.prevLatch (q : Intake) (f : Nat) : Latch :=
  (q.latches.foldl (fun (m : Option Latch) l =>
    if f ≤ l.frame then m else match m with
      | none => some l
      | some k => if k.frame < l.frame then some l else some k) none).getD { frame := 0 }

/-- Latches and notes of frames long past are dropped: those of frames that are not open, before the one being closed and 8 frames
back. -/
def Intake.prune (q : Intake) (f : Nat) (opened : List Nat) : Intake :=
  let keep (g : Nat) : Bool := decide (q.cur.frame ≤ g ∨ f ≤ g + 8) || opened.contains g
  { q with latches := q.latches.filter (fun l => keep l.frame), notes := q.notes.filter (fun n => keep n.frame) }

/-- R341: a cause that waits for a frame boundary is taken. -/
def State.boundaryCause (s : State) : State :=
  s.onSd fun s => match s.sd.pendingCause with
    | none => s
    | some c => { s.trip c false with sd := { (s.trip c false).sd with pendingCause := none } }

/-- R34, R304, R422: the opening of frame `f`'s window. -/
def State.openWindow (s : State) (f now : Nat) : State :=
  let s := ((s.calAtWindow f now).boundaryCause).onSd (·.systemBoundary f)
  let r := s.bus.latchFor (s.intake.prevLatch f) f (s.bus.reg (cleB + 0x10))
  let q := s.intake.prune f (s.fseq.openFrames.map (·.frame))
  { s with bus := r.2, intake := { q with latches := q.latches ++ [r.1] } }

/-- R42, R136, R277: frame numbers follow device time and the schedule; after a step of either back to frame `f` the intake begins again
there. DEDUCED. -/
def Intake.restart (q : Intake) (f : Nat) : Intake :=
  if q.latches.all (fun l => decide (l.frame < f)) then q
  else
    { q with latches := q.latches.filter (fun l => decide (l.frame < f)), notes := q.notes.filter (fun n => decide (n.frame < f)),
             cur := if f < q.cur.frame then { frame := f } else q.cur, first0 := Nat.min q.first0 f, first1 := Nat.min q.first1 f }

/-- R34 FRAME_WINDOW_OPEN: the window of frame `f` opens at t_ref − T_f. -/
def execFrameWindowOpen (f now : Nat) (s : State) : Host.Outcome State Fault Refusal :=
  .next (s.main fun s =>
    if s.bus.frameOf now = some f ∧ (s.intake.latches.getLast?).map (·.frame) ≠ some f then
      { s.at now with intake := s.intake.restart f }.openWindow f now
    else s)

-- Staging (R31, R33, R38, R42, R50 stage 1) ---------------------------------------------------------------------------------------------

/-- R31: the sensor of SIE `d` that a packet belongs to, by the values latched. -/
def Bus.matchSensor (b : Bus) (l : Latch) (d port srcLo udp : Nat) : Option Nat :=
  let lb := b.latched l
  let bad := if d = 0 then l.badBind0 else l.badBind1
  (List.range 16).find? (fun k =>
    let w := lb.bind d k
    let u := (lb.tmpl d (bits w 23 20)).udpPort
    bit w 31 && !(bad.contains k) && decide (bits w 18 16 = port % 8 ∧ bits w 15 0 = srcLo ∧ (u = udp ∨ u = 0)))

/-- R42, R482: whether slice `j` of frame `f` is closed to SIE `d`. -/
def Intake.closed (q : Intake) (d f j : Nat) : Bool :=
  decide (f < (if d = 0 then q.first0 else q.first1) ∨ f < q.cur.frame ∨ (f = q.cur.frame ∧ j < q.cur.slice))

/-- R50 stage 1: the counter of the filter that removes a point, by the FILTER latched for the ingress frame. -/
def stage1 (lb : Bus) (d k mode : Nat) (p : DecPt) : Option Nat :=
  let a := sieB d + 0x200 + 16 * k
  let r := fval fmt32 p.range
  if mode = 0 ∧ p.raw = 0 then some 3
  else if 3 < p.ret ∨ p.ret < 0 ∨ bit (lb.field (a + 8) 11 8) p.ret.toNat = false then some 4
  else if r.isFinite = false ∨ r.lt (FV.ofInt (lb.reg a)) ∨ (FV.ofInt (lb.reg (a + 4))).lt r then some 4
  else if p.intensity < lb.field (a + 8) 7 0 then some 4
  else none

/-- The staging ring of SIE `d`. -/
def Intake.ring (q : Intake) (d : Nat) : List StagedPt := if d = 0 then q.ring0 else q.ring1

/-- The staging ring of SIE `d` set. -/
def Intake.setRing (q : Intake) (d : Nat) (r : List StagedPt) : Intake := if d = 0 then { q with ring0 := r } else { q with ring1 := r }

/-- R42: a point dropped: counted, and DEGRADED set for its frame. -/
def State.dropPoint (s : State) (d k cnt : Nat) (f : Option Nat) : State :=
  let s := s.sieCount d k cnt 1
  match f with
  | some f => s.sieDegrade f 1 0
  | none => s

/-- R63: the 32 bytes of a staged point in its ring in memory; their layout is not stated, so they are free bytes. -/
def State.stageBytes (s : State) (d : Nat) : State :=
  let n := if d = 0 then s.intake.staged0 else s.intake.staged1
  let r := s.bus.freshN 32
  let s := { s with bus := (r.2.put (.unit (37 + d)) (s.bus.reg64 (sieB d + 0x50) + 32 * (n % (s.bus.reg64 (sieB d + 0x58) / 32))) r.1).1 }
  { s with intake := if d = 0 then { s.intake with staged0 := n + 1 } else { s.intake with staged1 := n + 1 } }

/-- R42: one decoded point assigned, filtered and staged. A point before frame 0's window is taken as late. -/
def State.stagePoint (s : State) (lb : Bus) (d k mode : Nat) (p : DecPt) : State :=
  match s.bus.frameOf p.t with
  | none => s.dropPoint d k 6 none
  | some f =>
    let start := s.bus.windowStart f
    let j := match s.intake.latch f with
      | some l => (p.t - start).toNat / l.sliceNs
      | none => 0
    if s.intake.closed d f j then s.dropPoint d k 6 (some f)
    else if (s.now : Int) + 1000000 < p.t then s.dropPoint d k 7 (some f)
    else if s.bus.reg64 (sieB d + 0x58) / 32 ≤ (s.intake.ring d).length then s.dropPoint d k 8 (some f)
    else
      match stage1 lb d k mode p with
      | some c => s.sieCount d k c 1
      | none =>
        let x : StagedPt := { frame := f, sensor := k, x := BitVec.ofNat 32 p.x, y := BitVec.ofNat 32 p.y, z := BitVec.ofNat 32 p.z,
                              t := p.t, intensity := p.intensity, ret := p.ret.toNat }
        { s with intake := s.intake.setRing d (s.intake.ring d ++ [x]) }.stageBytes d

/-- R31 SENSOR_PACKET: a UDP packet received on device-wide port `port`, ingress stamp `stamp`. -/
def State.sensorPacket (s : State) (port srcLo udp : Nat) (payload : List Byte) (stamp : Int) : State :=
  let d := port / 8
  let miss := s.onBus (·.inc (sieB d + 0x8400))
  match s.bus.frameOf stamp with
  | none => miss
  | some f0 =>
    match s.intake.latch f0 with
    | none => miss
    | some l =>
      match s.bus.matchSensor l d port srcLo udp with
      | none => miss
      | some k =>
        if s.sieOn d = false then s.sieCount d k 0 1
        else
          let lb := s.bus.latched l
          let t := lb.tmpl d (bits (lb.bind d k) 23 20)
          match t.packet true (fun i => lb.reg (sieB d + 0x2000 + 4 * i)) payload stamp with
          | none => (s.sieCount d k 1 1).sieDegrade f0 0 0
          | some pts => pts.foldl (fun s p => s.stagePoint lb d k t.mode p) ((s.sieCount d k 0 1).sieCount d k 2 pts.length)

-- Poses (R47 to R49) -----------------------------------------------------------------------------------------------------------------------

/-- R49, R66: the pose for instant m (given as 2m) by the values latched. -/
def State.poseFor (s : State) (lb : Bus) (m2 : Int) (waitOver : Bool) : PoseResult :=
  formPose s.intake.poses m2 (lb.field (sieB 0 + 0x1C) 31 16 * 1000) (lb.field (sieB 0 + 0x1C) 15 0 * 1000) waitOver

/-- R43: CLOSE_DELAY and POSE_WAIT in ns. -/
def Bus.closeDelay (lb : Bus) : Nat := lb.field (sieB 0 + 8) 15 4 * 1000
def Bus.poseWait (lb : Bus) : Nat := lb.field (sieB 0 + 8) 27 16 * 1000

/-- R333: P_ref of a frame formed once it can be, and passed to the Junesha die. -/
def State.tryRef (s : State) (now : Nat) : State :=
  match s.intake.refWait with
  | none => s
  | some f =>
    match s.intake.latch f with
    | none => s
    | some l =>
      let lb := s.bus.latched l
      let t := s.bus.tref f
      match s.poseFor lb (2 * (t : Int)) (decide (t + lb.closeDelay + lb.poseWait ≤ now)) with
      | .wait => s
      | .formed p _ =>
        { s with intake := { s.intake with refWait := none }, sd := s.sd.putFrame { s.sd.frame f with pref := some (some p) } }
      | .dropped =>
        { s with intake := { s.intake with refWait := none }, sd := s.sd.putFrame { s.sd.frame f with pref := some none } }

-- Voxels (R51 to R59) -------------------------------------------------------------------------------------------------------------------------

/-- R51: the voxel index of a coordinate for an edge field. -/
def voxIndex (edge : Nat) (c : Int) : Int := c / (((if bit edge 3 then 25 else 20) * 2 ^ (edge % 8 + 2) : Nat) : Int)

/-- R40, R57: a point record, with the die it came through. -/
structure PtRec where
  x : Int
  y : Int
  z : Int
  toff : Int
  intensity : Nat
  ret : Nat
  sensor : Nat
  die : Nat
  deriving DecidableEq, Repr

/-- R40: the record's 16 bytes. -/
def PtRec.bytes (r : PtRec) : List Byte :=
  leBytes 4 (toU 32 r.x) ++ leBytes 4 (toU 32 r.y) ++ leBytes 4 (toU 32 r.z) ++ leBytes 2 (toU 16 r.toff) ++ leBytes 1 r.intensity
    ++ leBytes 1 (r.sensor * 16 + r.ret * 4)

/-- R40: a record as read back. -/
def ptRecOf (bs : List Byte) : PtRec :=
  let fl := fld bs 15 1
  { x := sfld bs 0 4, y := sfld bs 4 4, z := sfld bs 8 4, toff := sfld bs 12 2, intensity := fld bs 14 1, ret := bits fl 3 2,
    sensor := bits fl 7 4, die := 0 }

/-- What closing a slice works with: the latch, its registers, the frame, the bank and its bases. -/
structure CloseEnv where
  l : Latch
  lb : Bus
  f : Nat
  p : Nat
  pt : Nat
  vt : Nat
  sl : Nat
  deriving DecidableEq, Repr

/-- R46, R63: the bases of frame `f`'s bank. -/
def closeEnv (b : Bus) (l : Latch) (f : Nat) : CloseEnv :=
  let lb := b.latched l
  let p := f % 2
  { l := l, lb := lb, f := f, p := p, pt := lb.reg64 (sieB 0 + 0x20 + 8 * p), vt := lb.reg64 (sieB 0 + 0x30 + 8 * p),
    sl := lb.reg64 (sieB 0 + 0x40 + 8 * p) }

/-- R53: the directory word's address of slot `i` of bucket `g`. -/
def CloseEnv.slotAt (e : CloseEnv) (g i : Nat) : Nat := 0x10000000 + e.p * 0x01000000 + 64 * g + 4 * i

/-- R55: the address of voxel entry `n`. -/
def CloseEnv.entryAt (e : CloseEnv) (n : Nat) : Nat := e.vt + 0x2000 + 16 * n

/-- R53: the hash of a key: the two candidate buckets and the TAG. -/
def voxHash (key : Nat) : Nat × Nat × Nat :=
  let c := crc32c (leBytes 8 key)
  let h1 := c % 2 ^ 18
  let h2 := c * 0x9E3779B1 % 2 ^ 32 / 2 ^ 14
  (h1, if h2 = h1 then h1 ^^^ 1 else h2, c / 2 ^ 24)

/-- The slot words of a bucket. -/
def Bus.bucket (b : Bus) (e : CloseEnv) (g : Nat) : List Nat := tab 16 (fun i => b.rdNat (e.slotAt g i) 4)

/-- R54: the ordinal under which a key is found. -/
def Bus.findVoxel (b : Bus) (e : CloseEnv) (key : Nat) : Option Nat :=
  let h := voxHash key
  ((b.bucket e h.1 ++ b.bucket e h.2.1).find? (fun w =>
    bit w 31 && decide (bits w 29 22 = h.2.2 ∧ b.rdNat (b.localAddr (e.entryAt (bits w 21 0))) 8 = key))).map (fun w => bits w 21 0)

/-- R53: the free slot a new key takes, none where both candidates are full. -/
def Bus.freeSlot (b : Bus) (e : CloseEnv) (key : Nat) : Option Nat :=
  let h := voxHash key
  let b1 := b.bucket e h.1
  let b2 := b.bucket e h.2.1
  let used (l : List Nat) : Nat := (l.filter (fun w => bit w 31)).length
  let g := if used b2 < used b1 then (h.2.1, b2) else (h.1, b1)
  (g.2.findIdx? (fun w => !bit w 31)).map (fun i => e.slotAt g.1 i)

/-- The voxeliser during one slice: bus, frame, the slice's list (ordinal, changed) newest last, and whether every write was served. -/
structure Vox where
  bus : Bus
  cur : SieFrame
  list : List (Nat × Bool) := []
  ok : Bool := true
  deriving DecidableEq, Repr

/-- A bank write of the SIE; once one is refused, no further write is made (R63). -/
def Vox.put (v : Vox) (a : Nat) (bs : List Byte) : Vox :=
  if v.ok then
    let r := v.bus.put (.unit 37) a bs
    { v with bus := r.1, ok := r.2 }
  else v

/-- R60: an ordinal that qualifies for the slice's list. -/
def Vox.mark (v : Vox) (n : Nat) (changed : Bool) : Vox :=
  if v.list.any (fun x => x.1 = n) then v else { v with list := v.list ++ [(n, changed)] }

/-- R57: the squared distance, in (0.25 mm)², from a record to its sensor's world origin at the mid-time of the slice it was written
in. -/
def r2Of (e : CloseEnv) (cur : SieFrame) (r : PtRec) (idx : Nat) : Int :=
  match cur.poses.find? (fun x => x.1 ≤ idx) with
  | none => 0
  | some x =>
    let o := (x.2.rigid fmt32 1).apply fmt32 ((e.lb.xform (activeAt r.sensor)).pose.rigid fmt32 1).t
    let q (c : Nat) : Int := ((fval fmt32 c).toIntRne).getD 0
    let dx := r.x - q o.x
    let dy := r.y - q o.y
    let dz := r.z - q o.z
    dx * dx + dy * dy + dz * dz

/-- R57: better. -/
def better (e : CloseEnv) (cur : SieFrame) (a : PtRec) (ai : Nat) (b : PtRec) (bi : Nat) : Bool :=
  let ra := r2Of e cur a ai
  let rb := r2Of e cur b bi
  if e.l.rule = 0 ∧ a.toff ≠ b.toff then decide (b.toff < a.toff)
  else if e.l.rule = 1 ∧ ra ≠ rb then decide (ra < rb)
  else if e.l.rule = 2 ∧ a.intensity ≠ b.intensity then decide (b.intensity < a.intensity)
  else if a.sensor ≠ b.sensor then decide (a.sensor < b.sensor)
  else if a.ret ≠ b.ret then decide (a.ret < b.ret)
  else decide (ai < bi)

/-- R57: an occupied voxel updated. -/
def Vox.update (v : Vox) (e : CloseEnv) (n : Nat) (r : PtRec) (idx : Nat) : Vox :=
  let a := e.entryAt n
  let old := v.bus.rdN (v.bus.localAddr a) 16
  let pi := bits (fld old 8 4) 22 0
  let mask := fld old 12 2
  let mask' := mask ||| 2 ^ r.sensor
  let inc := ptRecOf (v.bus.rdN (v.bus.localAddr (e.pt + 16 * pi)) 16)
  let win := better e v.cur r idx inc pi
  let v := v.put a (sub old 0 8 ++ leBytes 4 (if win then idx else pi) ++ leBytes 2 mask' ++ leBytes 2 (Nat.min (fld old 14 2 + 1) 65535))
  if win || decide (mask' ≠ mask) then v.mark n true else v

/-- R57, R59: a new voxel. -/
def Vox.insert (v : Vox) (e : CloseEnv) (slot key : Nat) (r : PtRec) (idx : Nat) : Vox :=
  let n := v.cur.voxels
  let v := (v.put slot (leBytes 4 (2 ^ 31 + (voxHash key).2.2 * 2 ^ 22 + n))).put (e.entryAt n)
    (leBytes 8 key ++ leBytes 4 idx ++ leBytes 2 (2 ^ r.sensor) ++ leBytes 2 0)
  let th := e.l.vtLimit - e.l.vtLimit / 8
  { v with cur := { v.cur with voxels := n + 1, reserve := v.cur.reserve || decide (th ≤ n + 1) } }.mark n false

/-- R59: the horizontal distance of a record from the machine origin passes RESERVE_RADIUS. -/
def inReserve (e : CloseEnv) (pose : FPose) (r : PtRec) : Bool :=
  let dx : Rat := (r.x : Rat) - pose.tx
  let dy : Rat := (r.y : Rat) - pose.ty
  let m : Rat := ((4 * e.lb.reg (sieB 0 + 0x18) : Nat) : Rat)
  decide (dx * dx + dy * dy ≤ m * m)

/-- R57, R59: a record voxelised; the counter of a voxel dropped (11 VOXEL_DROP, 12 RESERVE_REFUSED). -/
def Vox.voxelise (v : Vox) (e : CloseEnv) (pose : FPose) (r : PtRec) (idx : Nat) : Vox × Option Nat :=
  let ed (k : Nat) : Nat := e.l.edges.toNat / 256 ^ k % 256
  let key := worldKey (voxIndex (ed 0) r.x) (voxIndex (ed 1) r.y) (voxIndex (ed 2) r.z)
  match v.bus.findVoxel e key with
  | some n => (v.update e n r idx, none)
  | none =>
    if v.cur.reserve && !(inReserve e pose r) then (v, some 12)
    else if v.cur.voxels = e.l.vtLimit then ({ v with cur := { v.cur with full := true } }, some 11)
    else
      match v.bus.freeSlot e key with
      | none => (v, some 11)
      | some a => (v.insert e a key r idx, none)

-- Closing (R43 to R50, R56, R60) ------------------------------------------------------------------------------------------------------------------

/-- R40, R50: a world coordinate in 0.25 mm, none where it is not finite or outside int32. -/
def quarter (c : Nat) : Option Int :=
  match (fval fmt32 (fmul fmt32 (fofInt fmt32 4) c)).toIntRne with
  | some i => if -(2 ^ 31) ≤ i ∧ i < 2 ^ 31 then some i else none
  | none => none

/-- R50: a machine-frame point lies inside an enabled SELF_BOX of SIE `d`. -/
def selfBody (lb : Bus) (d : Nat) (m : V3) : Bool :=
  (List.range 8).any (fun i =>
    let a := sieB d + 0x400 + 32 * i
    let w (j : Nat) : FV := FV.ofInt (sext 32 (lb.reg (a + 4 * j)))
    let ins (j c : Nat) : Bool := (w j).le (fval fmt32 c) && (fval fmt32 c).le (w (j + 3))
    lb.flag (a + 24) 0 && ins 0 m.x && ins 1 m.y && ins 2 m.z)

/-- R49, R50: a staged point compensated and filtered: its record, or the counter of the filter that removes it. -/
def compensate (e : CloseEnv) (pose : Rigid) (d : Nat) (tref : Int) (x : StagedPt) : PtRec ⊕ Nat :=
  let f := fmt32
  let m := ((e.lb.xform (activeAt x.sensor)).pose.rigid f 4).apply f { x := x.x.toNat, y := x.y.toNat, z := x.z.toNat }
  let w := pose.apply f m
  let z := fval f w.z
  let lim (o : Nat) : FV := FV.ofInt (sext 32 (e.lb.reg (sieB d + o)))
  if selfBody e.lb d m then .inr 4
  else if z.lt (lim 0x74) || (lim 0x78).lt z then .inr 4
  else
    match quarter w.x, quarter w.y, quarter w.z with
    | some a, some b, some c =>
      let ed (k : Nat) : Nat := e.l.edges.toNat / 256 ^ k % 256
      let ok (i : Int) : Bool := decide (-(2 ^ 20) ≤ i ∧ i < 2 ^ 20)
      if ok (voxIndex (ed 0) a) && ok (voxIndex (ed 1) b) && ok (voxIndex (ed 2) c) then
        .inl { x := a, y := b, z := c, toff := (x.t - tref) / 4000, intensity := x.intensity, ret := x.ret, sensor := x.sensor, die := d }
      else .inr 5
    | _, _, _ => .inr 5

/-- The points of slice `j` of frame `f` in a ring, and the ring without them. -/
def takeSlice (r : List StagedPt) (f j sliceNs : Nat) (start : Int) : List StagedPt × List StagedPt :=
  let of (x : StagedPt) : Bool := decide (x.frame = f ∧ (x.t - start).toNat / sliceNs = j)
  (r.filter of, r.filter (fun x => !of x))

/-- R44, R45: the survivors' records written, up to PT_LIMIT: the voxeliser, the records with their indices, and the sensors (die,
number) whose points got none. -/
def writeRecords (e : CloseEnv) (v : Vox) (rs : List PtRec) : Vox × List (PtRec × Nat) × List PtRec :=
  rs.foldl (fun (q : Vox × List (PtRec × Nat) × List PtRec) r =>
    let n := q.1.cur.points
    if e.l.ptLimit ≤ n then (q.1, q.2.1, q.2.2 ++ [r])
    else ({ q.1.put (e.pt + 16 * n) r.bytes with cur := { (q.1.put (e.pt + 16 * n) r.bytes).cur with points := n + 1 } },
      q.2.1 ++ [(r, n)], q.2.2)) (v, [], [])

/-- R57: the records voxelised in index order: the voxeliser, and the drops (record, counter). -/
def voxeliseAll (e : CloseEnv) (pose : FPose) (v : Vox) (rs : List (PtRec × Nat)) : Vox × List (PtRec × Nat) :=
  rs.foldl (fun (q : Vox × List (PtRec × Nat)) r =>
    if q.1.ok then
      let y := q.1.voxelise e pose r.1 r.2
      (y.1, match y.2 with | some c => q.2 ++ [(r.1, c)] | none => q.2)
    else q) (v, [])

/-- R56: the slice descriptor. -/
def descriptor (first count listFirst : Nat) (extrap dropped reserve : Bool) (len : Nat) : List Byte :=
  leBytes 4 first ++ leBytes 4 count ++ leBytes 4 listFirst
    ++ leBytes 4 (b2n extrap * 2 ^ 31 + b2n dropped * 2 ^ 30 + b2n reserve * 2 ^ 29 + len % 2 ^ 23)

/-- R56: the frame header. -/
def frameHeader (e : CloseEnv) (c : SieFrame) (n : FrameNote) (slices tref : Nat) : List Byte :=
  let body := leBytes 4 e.f
    ++ leBytes 4 (b2n n.degraded + 2 * b2n c.reserve + 4 * b2n c.full + 8 * b2n c.extrap + 16 * b2n c.poseDropped)
    ++ leBytes 8 tref ++ leBytes 4 c.points ++ leBytes 4 c.voxels ++ leBytes 2 slices ++ leBytes 2 (c.reserveSlice.getD 0xFFFF)
    ++ leBytes 1 e.l.rule ++ leBytes 3 e.l.edges.toNat ++ leBytes 4 n.pointDrops ++ leBytes 4 n.voxelDrops ++ zeros 20
  body ++ leBytes 4 (crc32c body)

/-- R63: the SIE stopped by a bank bus error. -/
def State.sieBusError (s : State) (f : Nat) : State :=
  let s := s.onBus (fun b => (b.setFlag (sieB 0) 0 false).raise (sieB 0 + 4) 31)
  let s := { s with intake := { s.intake with waiting := false } }
  match s.fseq.frame f with
  | some x => if x.abandoned then s else s.reportFrame f 0x08
  | none => s

/-- R309: the pose of slice `j` of frame `f` passed to the CLE. -/
def State.passPose (s : State) (f j slices : Nat) (p : Option FPose) : State :=
  let old := if f % 2 = 0 then s.calib.bank0 else s.calib.bank1
  let b : PoseBank := { frame := f, slices := slices, poses := (if j = 0 then [] else old.poses) ++ [(j, p)] }
  { s with calib := if f % 2 = 0 then { s.calib with bank0 := b } else { s.calib with bank1 := b } }

/-- R46, R60: the objects of SYNC_CFG and RELEASE_CFG, in the registers latched for a frame (R481). -/
def Bus.sliceSync (b : Bus) (p : Nat) : Nat := (b.field (sieB 0 + 0x60) 13 0 + p) % 16384
def Bus.frameSync (b : Bus) : Nat := b.field (sieB 0 + 0x60) 29 16
def Bus.releaseSync (b : Bus) (p : Nat) : Nat := (b.field (sieB 0 + 0x64) 13 0 + p) % 16384

/-- The published frames of bank `p`. -/
def Intake.published (q : Intake) (p : Nat) : Nat := if p = 0 then q.published0 else q.published1

/-- R46: bank `p`'s directory is being cleared, or not. -/
def Intake.setClearing (q : Intake) (p : Nat) (v : Bool) : Intake :=
  if p = 0 then { q with clearing0 := v } else { q with clearing1 := v }

/-- R63, R65: what the registers of the publishing SIE show of the shared frame, those of SIE1 show too while it runs. -/
def State.bothSies (s : State) (f : Nat → Bus → Bus) : State :=
  let t := s.onBus (f (sieB 0))
  if s.sieOn 1 then t.onBus (f (sieB 1)) else t

/-- R46, R56, R60, R333: frame `f` closed: its header, FRAME_SYNC, and the clear of the frame before it. -/
def State.closeFrame (s : State) (e : CloseEnv) (slices : Nat) : State :=
  let c := s.intake.cur
  let r := s.bus.put (.unit 37) e.vt (frameHeader e c (s.intake.note e.f) slices (s.bus.tref e.f))
  if r.2 = false then { s with bus := r.1 }.sieBusError e.f
  else
    let q := s.intake
    let q := if e.p = 0 then { q with published0 := q.published0 + 1 } else { q with published1 := q.published1 + 1 }
    let q := if q.published (1 - e.p) = 0 then q else q.setClearing (1 - e.p) true
    { s with
      bus := r.1.add e.lb.frameSync 1
      intake := { q with cur := { frame := e.f + 1 }, refWait := some e.f } }.bothSies
        (fun a b => (b.setReg (a + 0x68) e.f).setFlag (a + 4) 28 false)

/-- R43 to R60: slice `cur.slice` of frame `cur.frame` closed with pose `pose` (none: its points are dropped). -/
def State.closeSlice (s : State) (e : CloseEnv) (pose : Option (FPose × Bool)) (now : Nat) : State :=
  let j := s.intake.cur.slice
  let slices := s.bus.tf / e.l.sliceNs
  let start := s.bus.windowStart e.f
  let t0 := takeSlice s.intake.ring0 e.f j e.l.sliceNs start
  let t1 := if s.sieOn 1 then takeSlice s.intake.ring1 e.f j e.l.sliceNs start else ([], s.intake.ring1)
  let s := { s with intake := { s.intake with ring0 := t0.2, ring1 := t1.2, waiting := false } }
  let s := s.passPose e.f j slices (pose.map (·.1))
  let all := t0.1.map (fun x => (0, x)) ++ t1.1.map (fun x => (1, x))
  -- what survives, with the counters of what does not
  let res : List (Nat × StagedPt × (PtRec ⊕ Nat)) := match pose with
    | none => all.map (fun x => (x.1, x.2, .inr 9))
    | some p =>
      let g := p.1.rigid fmt32 4
      all.map (fun x => (x.1, x.2, compensate e g x.1 (s.bus.tref e.f) x.2))
  let s := res.foldl (fun s x => match x.2.2 with
    | .inr c => s.sieCount x.1 x.2.1.sensor c 1
    | .inl _ => s) s
  let s := match pose with
    | none => s.sieDegrade e.f all.length 0
    | some (_, true) => s.sieDegrade e.f 0 0
    | some (_, false) => s
  let recs := res.filterMap (fun x => match x.2.2 with | .inl r => some r | .inr _ => none)
  let first := s.intake.cur.points
  let cur := match pose with
    | none => { s.intake.cur with poseDropped := true }
    | some (p, x) => { s.intake.cur with extrap := s.intake.cur.extrap || x, poses := (first, p) :: s.intake.cur.poses }
  let w := writeRecords e { bus := s.bus, cur := cur } recs
  let z := match pose with
    | none => (w.1, [])
    | some p => voxeliseAll e p.1 w.1 w.2.1
  let v := z.1
  let words := v.list.map (fun x => leBytes 4 (b2n x.2 * 2 ^ 31 + x.1))
  let v := v.put (e.sl + 4 * v.cur.words) words.flatten
  let v := v.put (e.vt + 0x40 + 16 * j)
    (descriptor first (v.cur.points - first) v.cur.words (match pose with | some (_, x) => x | none => false) pose.isNone
      v.cur.reserve v.list.length)
  let s := { s with bus := v.bus }
  let s := (w.2.2.map (fun r => (r, 10)) ++ z.2).foldl (fun s x =>
    (s.sieCount x.1.die x.1.sensor x.2 1).sieDegrade e.f (if x.2 = 10 then 1 else 0) (if x.2 = 10 then 0 else 1)) s
  if v.ok = false then s.sieBusError e.f
  else
    let c := { v.cur with
      words := v.cur.words + v.list.length
      reserveSlice := if v.cur.reserve && v.cur.reserveSlice.isNone then some j else v.cur.reserveSlice
      slice := j + 1 }
    let s := s.bothSies (fun a b => b.setFlag (a + 4) 28 c.reserve)
    let b := if j = 0 then s.bus.set (e.lb.sliceSync e.p) 0 else s.bus
    let s := { s with bus := b.add (e.lb.sliceSync e.p) 1, intake := { s.intake with cur := c } }
    if slices ≤ j + 1 then (s.closeFrame e slices).tryRef now else s

/-- R43, R46, R49: the next slice closed at `now`, if it is due and nothing holds it; otherwise the SIE waits. -/
def State.tryClose (s : State) (now : Nat) : State :=
  let c := s.intake.cur
  if s.sieOn 0 = false then s
  else
    match s.intake.latch c.frame with
    | none => s
    | some l =>
      let e := closeEnv s.bus l c.frame
      let a := s.bus.windowStart c.frame + (c.slice * l.sliceNs : Nat)
      let due := a + (l.sliceNs + e.lb.closeDelay : Nat)
      if (now : Int) < due then s
      else
        let held := { s with intake := { s.intake with waiting := true } }
        if c.slice = 0 ∧ (if e.p = 0 then s.intake.clearing0 else s.intake.clearing1) = true then held
        else if c.slice = 0 ∧ s.bus.waitGe (e.lb.releaseSync e.p) (s.intake.published e.p) = false then
          held.bothSies (fun a b => b.setFlag (a + 4) 27 true)
        else
          let s := s.bothSies (fun a b => b.setFlag (a + 4) 27 false)
          match s.poseFor e.lb (2 * a + (l.sliceNs : Nat)) (decide (due + e.lb.poseWait ≤ (now : Int))) with
          | .wait => { s with intake := { s.intake with waiting := true } }
          | .formed p x => s.closeSlice e (some (p, x)) now
          | .dropped => s.closeSlice e none now

/-- R43 SLICE_CLOSE. -/
def runSliceClose (now : Nat) (s : State) : Host.Outcome State Fault Refusal := .next (s.main fun s => (s.at now).tryClose now)

/-- R46: closing resumes once RELEASE_SYNC[p] reaches the count of frames published from bank `p`. -/
def runBankReleased (p : Fin 2) (s : State) : Host.Outcome State Fault Refusal :=
  .next (s.main fun s => if s.intake.waiting && decide (s.intake.cur.frame % 2 = p.val) then s.tryClose s.now else s)

/-- R46: the clear of bank `p`'s directory completes; a closing that waited for it resumes. -/
def runDirectoryClearDone (p : Fin 2) (s : State) : Host.Outcome State Fault Refusal :=
  .next (s.main fun s =>
    if (if p.val = 0 then s.intake.clearing0 else s.intake.clearing1) then
      let s := { s.onBus (·.zero (0x10000000 + p.val * 0x01000000) 0x01000000) with intake := s.intake.setClearing p.val false }
      if s.intake.waiting then s.tryClose s.now else s
    else s)

-- Pose input (R47, R48) ---------------------------------------------------------------------------------------------------------------------------

/-- R47: the record in the POSE_IN window. -/
def Bus.poseIn (b : Bus) : List Byte := (tab 12 (fun i => leBytes 4 (b.reg (sieB 0 + 0x800 + 4 * i)))).flatten

/-- R48: a pose record committed: refused, or taken into the ring; what waited for it goes on (R49, R333). -/
def State.commitPose (s : State) : State :=
  let bs := s.bus.poseIn
  let w (i : Nat) : Int := sfld bs (8 + 4 * i) 4
  let x : Xform := { tx := w 0, ty := w 1, tz := w 2, qw := w 3, qx := w 4, qy := w 5, qz := w 6 }
  let t := fld bs 0 8
  let late := match s.intake.poses.getLast? with
    | some p => decide (t < p.time + 1000000)
    | none => false
  if crc32c (sub bs 0 0x2C) ≠ fld bs 0x2C 4 ∨ x.normOk = false ∨ late = true then s.onBus (·.inc (sieB 0 + 0x8404))
  else
    let ring := s.intake.poses ++ [{ time := t, x := x, seq := BitVec.ofNat 32 (fld bs 0x24 4) }]
    let s := { s with intake := { s.intake with poses := if 64 < ring.length then ring.drop 1 else ring } }
    let s := s.tryRef s.now
    if s.intake.waiting then s.tryClose s.now else s

-- Enabling and flushing (R64, R482) ---------------------------------------------------------------------------------------------------------------------

/-- R46, R482: the intake of unpublished frames forgotten: both directories are left clear. -/
def Bus.clearDirectories (b : Bus) : Bus := b.zero 0x10000000 0x02000000

/-- R482: the staging ring of SIE `d` discarded and, for the publishing SIE, every unclosed slice of the frame in progress. -/
def State.sieDiscard (s : State) (d : Nat) : State :=
  let s := { s with intake := s.intake.setRing d [] }
  let idle (a : Nat) (b : Bus) : Bus := (b.setFlag (a + 4) 27 false).setFlag (a + 4) 28 false
  if d = 0 then { s.bothSies idle with intake := { s.intake with waiting := false } } else s.onBus (idle (sieB 1))

/-- R482: SIE_CTRL.ENABLE of SIE `d` set to 1: intake restarts with the frame after the present one. -/
def State.enableSie (s : State) (d now : Nat) : State :=
  if s.bus.flag (sieB d) 0 then s
  else
    let g := match s.bus.frameOf now with | some f => f + 1 | none => 0
    let s := (s.sieDiscard d).onBus (·.setFlag (sieB d) 0 true)
    if d = 0 then
      { s.onBus (·.clearDirectories) with
        intake := { s.intake with first0 := g, cur := { frame := g }, clearing0 := false, clearing1 := false } }
    else { s with intake := { s.intake with first1 := g } }

/-- R64, R482: FLUSH acts while ENABLE is 0. -/
def State.flushSie (s : State) (d : Nat) : State := if s.bus.flag (sieB d) 0 then s else s.sieDiscard d

/-- R482: SIE_CTRL.ENABLE cleared, with FLUSH in the same word or not. -/
def State.disableSie (s : State) (d : Nat) (flush : Bool) : State :=
  let s := s.onBus (·.setFlag (sieB d) 0 false)
  if flush then s.flushSie d else s

/-- SIE `d` is present (R17). -/
def State.hasSie (s : State) (d : Fin 2) : Bool := decide (d.val = 0) || s.bus.variant.isX2

/-- R482 SIE_ENABLE. -/
def execSieEnable (d : Fin 2) (now : Nat) (s : State) : Host.Outcome State Fault Refusal :=
  .next (s.main fun s => if s.hasSie d then (s.at now).enableSie d.val now else s)

/-- R482 SIE_DISABLE. -/
def execSieDisable (d : Fin 2) (flush : Bool) (s : State) : Host.Outcome State Fault Refusal :=
  .next (s.main fun s => if s.hasSie d then s.disableSie d.val flush else s)

/-- R64 FLUSH. -/
def execFlush (d : Fin 2) (s : State) : Host.Outcome State Fault Refusal :=
  .next (s.main fun s => if s.hasSie d then s.flushSie d.val else s)

end Sys2Proof.Machine
end

