-- ==== Sys2Proof/Machine/Camera.lean ====
section
/-! DEFINITION. The camera front ends (R210 to R223): bindings, camera frames and their assignment, lines in the channel-blocked layout,
frame ends with the pose at T_CAM, and publication; with the two pose commands that a front end may wait for (R48, R49). -/

namespace Sys2Proof.Machine

-- Registers as a frame sees them ---------------------------------------------------------------------------------------------------

/-- The front end of die `d`. -/
def State.cam (s : State) (d : Nat) : CamDie := s.cams.getD d {}

/-- The front end of die `d` replaced. -/
def State.setCam (s : State) (d : Nat) (c : CamDie) : State := { s with cams := modAt (fun _ => c) s.cams d }

/-- R214: the registers of die `d` in effect at present: those latched at the newest camera window, the present ones before the first. -/
def State.camNow (s : State) (d : Nat) : Bus :=
  match (s.cam d).last with
  | some r => { s.bus with regs := r }
  | none => s.bus

/-- R214: the registers of die `d` in effect for perception frame `f`: those latched at its camera window, else those in effect now. -/
def State.camRegs (s : State) (d f : Nat) : Bus :=
  match alook (s.cam d).latches f with
  | some r => { s.bus with regs := r }
  | none => s.camNow d

/-- R232: the registers of binding `k`. -/
abbrev camAt (d k : Nat) : Nat := camB d + 0x100 + 0x40 * k

/-- R232: counter `i` of binding `k`. -/
abbrev camCnt (d k i : Nat) : Nat := camB d + 0x800 + 0x40 * k + 4 * i

/-- R232: CAM_LEAD in ns. -/
def Bus.camLead (b : Bus) (d : Nat) : Nat := Nat.min 50000 (b.field (camB d + 8) 15 0) * 1000

/-- R211, R222, R223: the format of a camera. -/
structure CamFmt where
  dt : Nat
  shift : Nat
  s : Nat
  blk : Nat
  border : Nat
  h : Nat
  w : Nat
  pc : Nat
  deriving DecidableEq, Repr

/-- R211: the pixel channels of a data type, 0 where it is no type of R211. -/
def pixelChannels (dt : Nat) : Nat :=
  if dt = 0x2A ∨ dt = 0x2B ∨ dt = 0x2C then 1 else if dt = 0x1E ∨ dt = 0x24 then 3 else 0

/-- R233: the format in CAM_FMT and CAM_SIZE of binding `k`. -/
def Bus.camFmt (b : Bus) (d k : Nat) : CamFmt :=
  let f := b.reg (camAt d k + 4)
  let z := b.reg (camAt d k + 8)
  { dt := bits f 31 24, shift := bits f 18 16, s := 2 ^ bits f 9 8, blk := if bit f 4 then 32 else 16, border := bits f 1 0,
    h := bits z 31 16, w := bits z 15 0, pc := pixelChannels (bits f 31 24) }

/-- R213, R233: the format breaks its limits. -/
def CamFmt.bad (c : CamFmt) : Bool :=
  decide (c.pc = 0) || decide (4 < c.shift) || (decide (c.shift ≠ 0) && decide (c.dt ≠ 0x2B ∧ c.dt ≠ 0x2C)) || decide (c.s = 8)
    || !(decide (1 ≤ c.h ∧ c.h ≤ 8192 ∧ 1 ≤ c.w ∧ c.w ≤ 8192 ∧ c.h % c.s = 0 ∧ c.w % c.s = 0))
    || (decide (c.dt = 0x1E) && decide (c.w % 2 = 1))

/-- R213: CAM_BIND of binding `k`: EN, camera, receiver and channel. -/
def Bus.camEn (b : Bus) (d k : Nat) : Bool := b.flag (camAt d k) 31
def Bus.camNo (b : Bus) (d k : Nat) : Nat := b.field (camAt d k) 19 16
def Bus.camRx (b : Bus) (d k : Nat) : Nat := b.field (camAt d k) 10 8
def Bus.camVc (b : Bus) (d k : Nat) : Nat := b.field (camAt d k) 1 0

/-- R213: binding `k` is disabled: a lower one of its die names its receiver and channel, or an earlier one its camera. -/
def Bus.camBindBad (b : Bus) (d k : Nat) : Bool :=
  b.camEn d k &&
    ((List.range k).any (fun i => b.camEn d i && decide ((b.camRx d i = b.camRx d k ∧ b.camVc d i = b.camVc d k) ∨ b.camNo d i = b.camNo d k))
      || (decide (d = 1) && (List.range 8).any (fun i => b.camEn 0 i && decide (b.camNo 0 i = b.camNo 1 k))))

/-- A binding that receives frames. -/
def Bus.camUsable (b : Bus) (d k : Nat) : Bool := b.camEn d k && !b.camBindBad d k && !(b.camFmt d k).bad

/-- R233: the receiver is switched on: 1, 2 or 4 lanes. -/
def Bus.camPhyOn (b : Bus) (d rx : Nat) : Bool :=
  let l := b.field (camB d + 0x40 + 4 * rx) 2 0
  decide (l = 1 ∨ l = 2 ∨ l = 4)

/-- R214: the camera window of frame `f` by CAM_LEAD of `b`: start. -/
def Bus.camWindow (b : Bus) (d f : Nat) : Int := b.windowStart f - b.camLead d

-- The layout (R222, R223) --------------------------------------------------------------------------------------------------------------

/-- R223: blocks, positions and bytes of a bank. -/
def CamFmt.c (c : CamFmt) : Nat := c.s * c.s * c.pc
def CamFmt.nb (c : CamFmt) : Nat := ceilDiv c.c c.blk
def CamFmt.hp (c : CamFmt) : Nat := c.h / c.s + 2 * c.border
def CamFmt.wp (c : CamFmt) : Nat := c.w / c.s + 2 * c.border
def CamFmt.bytes (c : CamFmt) : Nat := c.nb * c.hp * c.wp * c.blk

/-- R223: the offset of channel `pc` of pixel (y, x). -/
def CamFmt.off (c : CamFmt) (y x pc : Nat) : Nat :=
  let ch := ((y % c.s) * c.s + x % c.s) * c.pc + pc
  ((ch / c.blk * c.hp + (y / c.s + c.border)) * c.wp + (x / c.s + c.border)) * c.blk + ch % c.blk

/-- R223: the offsets that belong to no pixel: border positions and the channels beyond C. -/
def CamFmt.blank (c : CamFmt) : List Nat :=
  (List.range c.bytes).filter (fun o =>
    let x := o / c.blk % c.wp
    let y := o / c.blk / c.wp % c.hp
    let ch := o / c.blk / c.wp / c.hp * c.blk + o % c.blk
    !(decide (c.border ≤ y ∧ y < c.h / c.s + c.border ∧ c.border ≤ x ∧ x < c.w / c.s + c.border ∧ ch < c.c)))

/-- R211: the samples of each pixel of a line, in channel order. -/
def linePixels (dt : Nat) (p : List Byte) : List (List Nat) :=
  let g (i : Nat) : Nat := fld p i 1
  if dt = 0x2B then
    (List.range (p.length / 5)).flatMap (fun n => tab 4 (fun i => [g (5 * n + i) * 4 + bits (g (5 * n + 4)) (2 * i + 1) (2 * i)]))
  else if dt = 0x2C then
    (List.range (p.length / 3)).flatMap (fun n => tab 2 (fun i => [g (3 * n + i) * 16 + bits (g (3 * n + 2)) (4 * i + 3) (4 * i)]))
  else if dt = 0x1E then
    (List.range (p.length / 4)).flatMap (fun n => tab 2 (fun i => [g (4 * n + 1 + 2 * i), g (4 * n), g (4 * n + 2)]))
  else if dt = 0x24 then tab (p.length / 3) (fun n => [g (3 * n + 2), g (3 * n + 1), g (3 * n)])
  else tab p.length (fun n => [g n])

/-- R222: a sample as INT8. -/
def camSample (shift v : Nat) : Byte := BitVec.ofNat 8 (toU 8 ((Nat.min 255 (v / 2 ^ shift) : Nat) - 128))

/-- R212, R223: the bytes of line `y`, at their offsets; what was not received is zero. -/
def CamFmt.line (c : CamFmt) (y : Nat) (px : List (List Nat)) : List (Nat × Byte) :=
  (List.range c.w).flatMap (fun x => tab c.pc (fun i =>
    (c.off y x i, match px[x]? with
      | some l => camSample c.shift (l.getD i 0)
      | none => 0)))

/-- Bytes written at their offsets from `base`; false once one is refused. -/
def Bus.putAt (b : Bus) (q : Requester) (base : Nat) : List (Nat × Byte) → Bus × Bool
  | [] => (b, true)
  | (o, v) :: t =>
    let r := b.put q (base + o) [v]
    if r.2 then Bus.putAt r.1 q base t else (r.1, false)

/-- R106: the requester that front end `d` is. -/
abbrev camReq (d : Nat) : Requester := .unit (63 + d)

-- Frames in reception ------------------------------------------------------------------------------------------------------------------

/-- The frame that binding `k` is receiving. -/
def CamDie.active (c : CamDie) (k : Nat) : Option CamFrame := c.frames.find? (fun x => decide (x.k = k) && !x.ended && !x.stopped)

/-- A camera frame put in place of the one of its binding and perception frame. -/
def CamDie.put (c : CamDie) (x : CamFrame) : CamDie :=
  { c with frames := c.frames.filter (fun y => decide (¬(y.k = x.k ∧ y.frame = x.frame))) ++ [x] }

/-- R233: ACTIVE of binding `k`. -/
def State.camActive (s : State) (d k : Nat) (v : Bool) : State := s.onBus (·.setFlag (camB d + 4) k v)

/-- R216, R233: bytes of a camera frame's image written; a refused write sets BUS_ERR and cuts the frame. -/
def State.camWrite (s : State) (d : Nat) (x : CamFrame) (l : List (Nat × Byte)) : State :=
  let img := l.foldl (fun m o => modAt (fun _ => o.2) m o.1) x.image
  if x.busErr then s.setCam d ((s.cam d).put { x with image := img })
  else
    let base := (s.camRegs d x.frame).reg64 (camAt d x.k + 0x10 + 8 * x.bank)
    let r := s.bus.putAt (camReq d) base l
    let y := { x with image := img }
    if r.2 then { s with bus := r.1 }.setCam d ((s.cam d).put y)
    else
      ({ s with bus := (r.1.raise (camB d + 4) 31).inc (camCnt d x.k 6) }).setCam d ((s.cam d).put { y with busErr := true, truncated := true })

/-- R217: the pose of a camera frame that reached its end, once it can be formed. -/
def State.camPose (s : State) (d : Nat) (x : CamFrame) (waitOver : Bool) : State :=
  let lb := match s.intake.latches.filter (fun l => decide (l.frame ≤ x.frame)) with
    | [] => s.bus
    | _ => s.bus.latched (s.intake.prevLatch (x.frame + 1))
  let late := waitOver || decide (x.feAt + lb.poseWait ≤ s.now)
  match s.poseFor lb (2 * (x.tcam : Int)) late with
  | .wait => s
  | .formed p e =>
    let s := s.setCam d ((s.cam d).put { x with pose := some p, extrap := e, poseDone := true })
    if e then s.onBus (·.inc (camCnt d x.k 12)) else s
  | .dropped => (s.setCam d ((s.cam d).put { x with poseDropped := true, poseDone := true })).onBus (·.inc (camCnt d x.k 13))

/-- R221: CAM_SEQ, T_CAM and image CRC of a camera frame passed to the Junesha die; `ok`: its descriptor is VALID (R367). -/
def State.camPass (s : State) (d : Nat) (x : CamFrame) (ok : Bool) : State :=
  let n := (s.camRegs d x.frame).camNo d x.k
  let fr := s.sd.frame x.frame
  { s with sd := s.sd.putFrame { fr with
      cams := fr.cams.filter (fun y => decide (y.1 ≠ n)) ++ [(n, x.seq.toNat, x.tcam, BitVec.ofNat 32 (crc32c x.image), ok)] } }

/-- R212, R217: a camera frame ends: missing lines are written as zeros. -/
def State.camEnd (s : State) (d : Nat) (x : CamFrame) : State :=
  let c := (s.camRegs d x.frame).camFmt d x.k
  let short := decide (x.lines < c.h)
  let s := if short then s.camWrite d x ((List.range (c.h - x.lines)).flatMap (fun i => c.line (x.lines + i) [])) else s
  let y := (((s.cam d).frames.find? (fun z => decide (z.k = x.k ∧ z.frame = x.frame))).getD x)
  let y := { y with ended := true, truncated := y.truncated || short, feAt := s.now }
  let s := (s.setCam d ((s.cam d).put y)).camActive d x.k false
  let s := if short then s.onBus (·.inc (camCnt d x.k 6)) else s
  (s.camPass d y false).camPose d y false

/-- R212: a frame still in reception when another starts is ended as by an early FE, and TRUNCATED. -/
def State.camCutShort (s : State) (d k : Nat) : State :=
  match (s.cam d).active k with
  | none => s
  | some x =>
    let s := s.camEnd d x
    match (s.cam d).frames.find? (fun z => decide (z.k = k ∧ z.frame = x.frame)) with
    | none => s
    | some y => if y.truncated then s else (s.setCam d ((s.cam d).put { y with truncated := true })).onBus (·.inc (camCnt d k 6))

/-- R214: the perception frame of a camera frame stamped `t` on receiver and channel: binding, frame, T_CAM. The registers latched for
a frame decide for it; the registers in effect now for a frame whose window has not opened or whose publication is past. -/
def State.camAssign (s : State) (d rx vc t : Nat) : Option (Nat × Nat × Int) :=
  let try' (b : Bus) (f : Option Nat) : Option (Nat × Nat × Int) :=
    match (List.range 8).find? (fun k => b.camEn d k && decide (b.camRx d k = rx ∧ b.camVc d k = vc)) with
    | none => none
    | some k =>
      let tc : Int := t + sext 32 (b.reg (camAt d k + 0x0C))
      match b.frameOf (tc + b.camLead d) with
      | none => none
      | some g => if f = none ∨ f = some g then some (k, g, tc) else none
  match (s.cam d).latches.findSome? (fun l => try' { s.bus with regs := l.2 } (some l.1)) with
  | some r => some r
  | none => (try' (s.camNow d) none).filter (fun r => (alook (s.cam d).latches r.2.1).isNone)

/-- R214, R215: a camera frame starts. -/
def State.camStart (s : State) (d k f : Nat) (tcam : Int) (seq : BitVec 16) : State :=
  let s := s.onBus (·.inc (camCnt d k 0))
  let b := s.camRegs d f
  let p := f % 2
  let c := s.cam d
  if s.bus.flag (camB d) 0 = false ∨ b.camUsable d k = false then s
  else if s.bus.waitGe ((s.bus.field (camB d + 0x20) 29 16 + p) % 16384) (if p = 0 then c.published0 else c.published1) = false then
    (s.setCam d { c with busy := if c.busy.contains (k, f) then c.busy else (k, f) :: c.busy }).onBus (·.inc (camCnt d k 4))
  else if (match c.lastPub with | some l => decide (f ≤ l) | none => false) then s.onBus (·.inc (camCnt d k 3))
  else
    let old := c.frames.any (fun x => decide (x.k = k ∧ x.frame = f))
    let s := s.onBus (·.inc (camCnt d k 1))
    let s := if old then s.onBus (·.inc (camCnt d k 2)) else s
    let c := { c with busy := c.busy.filter (fun y => decide (y ≠ (k, f))) }
    let fm := b.camFmt d k
    let x : CamFrame := { k := k, frame := f, bank := p, seq := seq, tcam := tcam.toNat, replaced := old, image := zeros fm.bytes }
    ((s.setCam d (c.put x)).camWrite d x (fm.blank.map (fun o => (o, 0)))).camActive d k true

/-- The front end of die `d` is present. -/
def State.hasCam (s : State) (d : Fin 2) : Bool := decide (d.val = 0) || s.bus.variant.isX2

/-- R211, R214: the binding that a packet belongs to: that of a frame being received, by the registers latched for it, else an enabled one
of the registers in effect now. -/
def State.camBinding (s : State) (d rx vc : Nat) : Option Nat :=
  let of (b : Bus) (k : Nat) : Bool := b.camEn d k && decide (b.camRx d k = rx ∧ b.camVc d k = vc)
  match (s.cam d).frames.find? (fun x => !x.ended && !x.stopped && of (s.camRegs d x.frame) x.k) with
  | some x => some x.k
  | none => (List.range 8).find? (of (s.camNow d))

/-- R211, R212: a packet of channel `vc` of receiver `rx`, its header checked: one that no binding names is counted in UNBOUND, one whose
header fails is discarded; the others are the binding's. -/
def State.camPacket (s : State) (d : Fin 2) (rx : Fin 8) (vc : Fin 4) (hdr : HdrEcc) (f : Nat → State → State) : State :=
  if s.hasCam d = false ∨ s.bus.camPhyOn d.val rx.val = false then s
  else
    match s.camBinding d.val rx.val vc.val with
    | none => s.onBus (·.inc (camB d.val + 0xC00))
    | some k =>
      match hdr with
      | .ok => f k s
      | .corrected => f k (s.onBus (·.inc (camCnt d.val k 9)))
      | .failed => s.onBus (·.inc (camCnt d.val k 10))

/-- R215 CSI_FRAME_START. -/
def runCsiFrameStart (d : Fin 2) (rx : Fin 8) (vc : Fin 4) (seq : BitVec 16) (hdr : HdrEcc) (now : Nat) (s : State) :
    Host.Outcome State Fault Refusal :=
  .next (s.main fun s => s.camPacket d rx vc hdr fun _ s =>
    let s := s.at now
    match s.camAssign d.val rx.val vc.val (now / 2 * 2) with
    | none => s
    | some (k, f, tc) => (if s.bus.flag (camB d.val) 0 then s.camCutShort d.val k else s).camStart d.val k f tc seq)

/-- R212: a long packet of the frame in reception: a line. -/
def State.camLine (s : State) (d : Nat) (x : CamFrame) (payload : List Byte) (crcOk : Bool) : State :=
  let c := (s.camRegs d x.frame).camFmt d x.k
  let s := if crcOk then s else s.onBus (·.inc (camCnt d x.k 8))
  if c.h ≤ x.lines then
    (s.setCam d ((s.cam d).put { x with lineErr := true })).onBus (·.inc (camCnt d x.k 7))
  else
    let px := linePixels c.dt payload
    let bad := !crcOk || decide (px.length ≠ c.w)
    let y := { x with lines := x.lines + 1, lineErr := x.lineErr || bad }
    let s := if bad then s.onBus (·.inc (camCnt d x.k 7)) else s
    s.camWrite d y (c.line x.lines (if crcOk then px else []))

/-- R212 CSI_LINE. -/
def runCsiLine (d : Fin 2) (rx : Fin 8) (vc : Fin 4) (dt : Byte) (payload : List Byte) (hdr : HdrEcc) (crcOk : Bool) (s : State) :
    Host.Outcome State Fault Refusal :=
  .next (s.main fun s => s.camPacket d rx vc hdr fun k s =>
    if s.bus.flag (camB d.val) 0 = false then s
    else
      let want := match (s.cam d.val).active k with
        | some x => ((s.camRegs d.val x.frame).camFmt d.val k).dt
        | none => ((s.camNow d.val).camFmt d.val k).dt
      if dt.toNat ≠ want then s.onBus (·.inc (camCnt d.val k 11))
      else match (s.cam d.val).active k with
        | some x => s.camLine d.val x payload crcOk
        | none => s)

/-- R217 CSI_FRAME_END. -/
def runCsiFrameEnd (d : Fin 2) (rx : Fin 8) (vc : Fin 4) (hdr : HdrEcc) (now : Nat) (s : State) : Host.Outcome State Fault Refusal :=
  .next (s.main fun s => s.camPacket d rx vc hdr fun k s =>
    let s := s.at now
    match (if s.bus.flag (camB d.val) 0 then (s.cam d.val).active k else none) with
    | some x => s.camEnd d.val x
    | none => s)

-- Publication (R216, R218, R219, R221) ---------------------------------------------------------------------------------------------------

/-- R218: a REAL or rational scaled and rounded to the integers of R47. -/
def ratRne (r : Rat) : Int := divRne r.num r.den

/-- R218: VALID. -/
def CamFrame.valid (x : CamFrame) (h : Nat) : Bool :=
  x.ended && decide (x.lines = h) && !x.truncated && !x.lineErr && !x.poseDropped && !x.busErr

/-- R218: the descriptor of a camera: `x` its frame, `busy`, `fmt` the other reasons; none enabled: STATUS 0. -/
def camDescriptor (f c h : Nat) (en : Bool) (x : Option CamFrame) (busy fmt : Bool) : List Byte :=
  let st := if en = false then 0 else
    match x with
    | none => 2 + 64 * b2n busy + 256 * b2n fmt
    | some x => b2n (x.valid h && !fmt) + 4 * b2n x.truncated + 8 * b2n x.lineErr + 16 * b2n x.extrap + 32 * b2n x.poseDropped
        + 64 * b2n busy + 128 * b2n x.replaced + 256 * b2n fmt
  let q (r : Rat) : List Byte := leBytes 4 (toU 32 (ratRne (r * 1073741824)))
  let t (r : Rat) : List Byte := leBytes 4 (toU 32 (ratRne r))
  let pose := match x.bind (·.pose) with
    | some p => t p.tx ++ t p.ty ++ t p.tz ++ q p.qw ++ q p.qx ++ q p.qy ++ q p.qz
    | none => zeros 28
  let body := leBytes 4 f ++ leBytes 4 st
    ++ (match x with
        | some x => leBytes 8 x.tcam ++ leBytes 2 x.seq.toNat ++ leBytes 2 x.lines
        | none => zeros 12)
    ++ leBytes 1 c ++ zeros 3 ++ pose ++ zeros 8
  body ++ leBytes 4 (crc32c body)

/-- R216: a perception frame published by die `d`. -/
def State.camPublishFrame (s : State) (d f : Nat) : State :=
  let b := s.camRegs d f
  let c := s.cam d
  let p := f % 2
  let named (n : Nat) : List Nat := (List.range 8).filter (fun k => b.camEn d k && decide (b.camNo d k = n))
  let bound (n : Nat) : Option Nat := match (named n).find? (fun k => !b.camBindBad d k) with
    | some k => some k
    | none => (named n).head?
  let cams := (tab 8 (fun i => 8 * d + i)
    ++ ((List.range 8).filter (fun k => b.camEn d k)).map (fun k => b.camNo d k)).eraseDups
  let base := b.reg64 (camB d + 0x10 + 8 * p)
  let s := cams.foldl (fun (s : State) n =>
    match bound n with
    | none =>
      let r := s.bus.put (camReq d) (base + 64 * n) (camDescriptor f n 0 false none false false)
      { s with bus := if r.2 then r.1 else r.1.raise (camB d + 4) 31 }
    | some k =>
      let x := c.frames.find? (fun x => decide (x.k = k ∧ x.frame = f))
      let fm := (b.camFmt d k).bad
      let h := (b.camFmt d k).h
      let r := s.bus.put (camReq d) (base + 64 * n) (camDescriptor f n h true x (c.busy.contains (k, f)) fm)
      let s := { s with bus := if r.2 then r.1 else r.1.raise (camB d + 4) 31 }
      let s := (named n).foldl (fun s i => if decide (i = k) && x.isSome then s else s.onBus (·.inc (camCnt d i 5))) s
      let ok := match x with | some x => x.valid h && !fm | none => false
      let s := if ok && !(match x with | some x => x.extrap | none => false) then s else s.degrade f
      match x with
      | none => s
      | some x => s.camPass d x ok) s
  let s := s.setCam d { c with
    frames := c.frames.filter (fun x => decide (x.frame ≠ f)), busy := c.busy.filter (fun x => decide (x.2 ≠ f)),
    latches := c.latches.filter (fun l => decide (f < l.1)), lastPub := some f,
    published0 := c.published0 + (if p = 0 then 1 else 0), published1 := c.published1 + (if p = 0 then 0 else 1) }
  s.onBus (fun b => b.add (b.field (camB d + 0x20) 13 0) 1)

/-- R216: the next frame of die `d` to publish: the oldest latched one. -/
def CamDie.next (c : CamDie) : Option Nat := (c.latches.map (·.1)).foldl (fun m f => match m with
  | none => some f
  | some g => some (Nat.min f g)) none

/-- R214: the end of the camera window of frame `f`. -/
def State.camWindowEnd (s : State) (d f : Nat) : Int := (s.bus.tref f : Int) - (s.camRegs d f).camLead d

/-- R216 CAM_PUBLISH: the window has closed and every camera frame written for it has ended and has its pose. -/
def runCamPublish (d : Fin 2) (now : Nat) (s : State) : Host.Outcome State Fault Refusal :=
  .next (s.main fun s =>
    match (s.cam d.val).next with
    | none => s
    | some f =>
      if s.bus.flag (camB d.val) 0 && decide (s.camWindowEnd d.val f ≤ now)
          && (s.cam d.val).frames.all (fun x => decide (x.frame ≠ f) || (x.ended && x.poseDone)) then
        (s.at now).camPublishFrame d.val f
      else s)

/-- R216, R217: an incomplete camera frame is cut: no more of it is written. The pose of one that reached FE is decided now. -/
def State.camCut (s : State) (d : Nat) (x : CamFrame) : State :=
  if x.ended then (if x.poseDone then s else s.camPose d x true)
  else
    let y := { x with stopped := true, truncated := true, poseDone := true }
    ((((s.setCam d ((s.cam d).put y)).onBus (·.inc (camCnt d x.k 6))).camActive d x.k false)).camPass d y false

/-- R216 CAM_GRACE_EXPIRY. -/
def runCamGraceExpiry (d : Fin 2) (now : Nat) (s : State) : Host.Outcome State Fault Refusal :=
  .next (s.main fun s =>
    match (s.cam d.val).next with
    | none => s
    | some f =>
      let b := s.camRegs d.val f
      if s.bus.flag (camB d.val) 0 && decide (s.camWindowEnd d.val f + (b.field (camB d.val + 0x0C) 15 0 * 1000 : Nat) ≤ now) then
        let s := s.at now
        (((s.cam d.val).frames.filter (fun x => x.frame = f)).foldl (fun s x => s.camCut d.val x) s).camPublishFrame d.val f
      else s)

/-- R213, R233: BIND_ERR and FMT_ERR of die `d` by the present registers. -/
def Bus.camErrs (b : Bus) (d : Nat) : Bus :=
  let bad := (List.range 8).filter (fun k => b.camBindBad d k)
  let fmt := (List.range 8).filter (fun k => b.camEn d k && (b.camFmt d k).bad)
  (b.setField (camB d + 4) 15 8 (maskOf bad)).setField (camB d + 4) 23 16 (maskOf fmt)

/-- R214 CAMERA_WINDOW_OPEN: at t_ref − T_f − CAM_LEAD the camera registers are latched for frame `f`. While the front end is disabled
nothing is published, and only the newest window is kept. -/
def runCameraWindowOpen (d : Fin 2) (f now : Nat) (s : State) : Host.Outcome State Fault Refusal :=
  .next (s.main fun s =>
    let c := s.cam d.val
    if s.hasCam d && decide (s.bus.frameOf (now + s.bus.camLead d.val : Nat) = some f) && c.latches.all (fun l => decide (l.1 < f))
        && (match c.lastPub with | some l => decide (l < f) | none => true) then
      let old := if s.bus.flag (camB d.val) 0 then c.latches else []
      ((s.at now).setCam d.val { c with latches := old ++ [(f, s.bus.regs)], last := some s.bus.regs }).onBus (·.camErrs d.val)
    else s)

-- Pose commands -----------------------------------------------------------------------------------------------------------------------------

/-- R217: the poses of ended camera frames that still wait are tested again. -/
def State.retryCamPoses (s : State) : State :=
  [0, 1].foldl (fun s d => ((s.cam d).frames.filter (fun x => x.ended && !x.poseDone)).foldl (fun s x => s.camPose d x false) s) s

/-- R48 POSE_COMMIT: a write of the word at POSE_IN + 0x2C. -/
def runPoseCommit (crc : Word) (s : State) : Host.Outcome State Fault Refusal :=
  .next (s.main fun s => ((s.onBus (·.setReg (sieB 0 + 0x82C) crc.toNat)).commitPose).retryCamPoses)

/-- R49: the pose wait of a closing slice (or of P_ref, R333, or of a camera frame, R217) ends, and the rows are tested again. -/
def runPoseWaitExpiry (now : Nat) (s : State) : Host.Outcome State Fault Refusal :=
  .next (s.main fun s =>
    let s := (s.at now).tryRef now
    (if s.intake.waiting then s.tryClose now else s).retryCamPoses)

end Sys2Proof.Machine
end

