-- ==== Sys2Proof/Machine/SelectMerge.lean ====
section
/-! DEFINITION. Candidate selection and box output (R235 to R259): the merge, box records, the batch and its commit, host rings and the
scheduled Ethernet launch. -/

namespace Sys2Proof.Machine

-- The merge (R241 to R245) ---------------------------------------------------------------------------------------------------------

/-- A run as the tree sees it (R239): where its next record lies, how many remain, its TAIL_TIES, the record taken last and the key of
its last valid record taken. -/
structure Run where
  addr : Nat
  left : Nat
  tail : Nat
  prev : Option Rec := none
  last : Option Nat := none
  deriving DecidableEq, Repr

/-- The merge in progress: the engine's work, the runs, the kept records (newest first, with DUP_MERGED), the IDs in SEEN, and the counts. -/
structure Merge where
  g : Eng
  runs : List Run
  kept : List (Rec × Bool) := []
  seen : List Nat := []
  dup : Nat := 0
  ties : Nat := 0
  taken : Nat := 0
  stop : Bool := false
  deriving DecidableEq, Repr

/-- R235: the fields of a record. -/
def recValid (r : Rec) : Bool := bit r.1 31
def recId (r : Rec) : Nat := bits r.2 31 12
def recSrc (r : Rec) : Nat := bits r.2 11 0

/-- The record at `a`. -/
def recAt (b : Bus) (a : Nat) : Rec :=
  let bs := (b.fetch a 8).bytes
  (fld bs 0 4, fld bs 4 4)

/-- R241: the run whose next record the tree releases: first in the order of R179, equal records in ascending entry. -/
def bestRun (b : Bus) (runs : List Run) : Option (Nat × Rec) :=
  runs.zipIdx.foldl (fun (m : Option (Nat × Rec)) r =>
    if r.1.left = 0 then m
    else
      let x := recAt b r.1.addr
      match m with
      | none => some (r.2, x)
      | some (i, y) => if recLe y x then some (i, y) else some (r.2, x)) none

/-- R241: one record taken. -/
def Merge.take (m : Merge) (k : Nat) : Merge :=
  match bestRun m.g.bus m.runs with
  | none => { m with stop := true }
  | some (i, r) =>
    let run := m.runs.getD i { addr := 0, left := 0, tail := 0 }
    let g := (m.g.get run.addr 8).2
    let m := { m with g := g, taken := m.taken + 1 }
    if (match run.prev with | some p => !(recLe p r) | none => false) then { m with g := { g with fmt := some (0x10, i) }, stop := true }
    else
      let run := { run with addr := run.addr + 8, left := run.left - 1, prev := some r }
      let run := if recValid r then { run with last := some r.1 } else run
      let m := { m with runs := modAt (fun _ => run) m.runs i }
      if recValid r = false then { m with stop := true }
      else if m.seen.contains (recId r) then
        { m with dup := m.dup + 1, kept := m.kept.map (fun y => if recId y.1 = recId r then (y.1, true) else y) }
      else
        let m := { m with seen := recId r :: m.seen }
        if m.kept.length < k then { m with kept := (r, false) :: m.kept }
        else if (match m.kept with | y :: _ => decide (y.1.1 = r.1) | [] => false) then { m with ties := m.ties + 1 }
        else { m with stop := true }

/-- R241: records taken until the merge stops. -/
def Merge.loop : Nat → Nat → Merge → Merge
  | 0, _, m => m
  | f + 1, k, m => if m.stop then m else Merge.loop f k (m.take k)

/-- R241: the TAIL_TIES of runs wholly taken whose last valid key is the k-th record's. -/
def Merge.tails (m : Merge) (k : Nat) : Nat :=
  match m.kept with
  | [] => 0
  | y :: _ =>
    if m.kept.length < k then 0
    else lsum ((m.runs.filter (fun r => decide (r.last = some y.1.1)
      && (decide (r.left = 0) || !(recValid (recAt m.g.bus r.addr)) || (match r.prev with | some p => !(recValid p) | none => false)))).map
        (fun r => r.tail))

/-- R238: the resolved k. -/
def smK (e : StepEnv) : Nat := e.dim 1 + 65536 * e.dim 2

/-- R239: the runs of the run table, by the addresses in OPND1. -/
def smRuns (e : StepEnv) (g : Eng) : List Run × Eng :=
  (List.range (e.dim 0)).foldl (fun (q : List Run × Eng) i =>
    let x := q.2.get (e.base 0 + 16 * i) 16
    (q.1 ++ [{ addr := e.base 1 + 64 * fld x.1 0 4, left := fld x.1 4 4, tail := fld x.1 8 4 }], x.2)) ([], g)

/-- The merge of a step. -/
def smMerged (e : StepEnv) (b : Bus) : Merge :=
  let r := smRuns e { bus := b }
  Merge.loop (lsum (r.1.map (fun x => x.left)) + 1) (smK e) { g := r.2, runs := r.1 }

/-- R258: the counters of a merge. -/
def smCounts (m : Merge) (ties : Nat) (b : Bus) : Bus :=
  ((b.bump (smeB + 0x410) m.taken).bump (smeB + 0x414) m.dup).bump (smeB + 0x418) ties

/-- The accesses that both operations check at issue: run table and run records. -/
def smReads (e : StepEnv) (b : Bus) : List Acc :=
  [engAcc 0 false [(0, 16 * e.dim 0)],
   engAcc 1 false ((smRuns e { bus := b }).1.map (fun r => (r.addr - e.base 1, 8 * r.left)))]

/-- R238: an SME operation: it waits while ENABLE = 0. -/
def smOp (op : Nat) (kmax : Nat) (ready : StepEnv → State → Bool) (accs : StepEnv → State → List Acc) (eff : StepEnv → State → Done)
    (zero : StepEnv → State → State) (runsAtZero : Bool := false) : UnitOp :=
  { sel := fun d => d.unit = 6 && d.op = op
    ready := fun e s => s.bus.flag smeB 0 && ready e s
    pre := fun e _ => if 32 < e.dim 0 ∨ 16 < e.dim 2 ∨ kmax < smK e then [0x0B] else []
    accs := accs
    eff := eff
    zero := zero
    runsAtZero := runsAtZero }

/-- R243: the pad record of R179. -/
def padRec : Rec := (0, 0xFFFFFFFF)

/-- R239, R243, R244: what SM_MERGE writes. -/
def smMergeEff (e : StepEnv) (s : State) : Done :=
  let m := smMerged e s.bus
  let k := smK e
  let v := m.kept.length
  let ties := if v = k then m.ties + m.tails k else 0
  let as := smReads e s.bus ++ [engAcc 2 true [(0, 8 * k)], engAcc 3 true [(4, 12)]]
  let g := if m.g.fmt.isSome then m.g
    else
      let out := m.kept.reverse.map (fun x => x.1) ++ List.replicate (k - v) padRec
      (m.g.put e 2 (e.base 2) (encodeRecs out)).put e 3 (e.base 3 + 4) (leBytes 4 k ++ leBytes 4 ties ++ leBytes 4 v)
  engDone s e smeB (smeB + 0x434) as { g with bus := smCounts m ties g.bus }

/-- R241 SM_MERGE: what the step does. With no runs it still writes its k pad records and its entry (R238, R243). -/
def opSmMerge : UnitOp :=
  smOp 1 (2 ^ 20) (fun _ _ => true)
    (fun e s => smReads e s.bus ++ [engAcc 2 true [(0, 8 * smK e)], engAcc 3 true [(4, 12)]]) smMergeEff (fun _ s => s) true

/-- R241 SM_MERGE. -/
def runSmMerge (p : Fin 2) (s : State) : Host.Outcome State Fault Refusal :=
  .next (runStep .sme p opSmMerge s)

-- SM_BOXES (R240, R246, R249, R251, R252) ------------------------------------------------------------------------------------------------

/-- R252: a batch is disposed of on every output. -/
def Batch.disposed (x : Batch) : Bool := x.committed && x.ring0 && x.ring1 && x.eth

/-- R252: the batch of frame f − 2, if there is one, is disposed of. -/
def State.bankFree (s : State) (f : Nat) : Bool :=
  decide (f < 2) || (match s.select.batch (f - 2) with | some x => x.disposed | none => true)

/-- R247: BATCH_BASE of frame `f`'s bank. -/
def Bus.batchBase (b : Bus) (f : Nat) : Nat := b.reg64 (smeB + 0x30 + 8 * (f % 2))

/-- R246: a record delivered from a candidate row. -/
def boxBytes (row : List Byte) (r : Rec) (dup tied : Bool) : List Byte :=
  let body := sub row 0 0x18 ++ sub row 0x18 1 ++ leBytes 1 (1 + 2 * b2n dup + 4 * b2n tied) ++ leBytes 2 (bits r.1 30 15)
    ++ leBytes 4 (recId r) ++ sub row 0x20 2 ++ zeros 28
  body ++ leBytes 2 (crc16 body)

/-- R246: the pad record of a batch. -/
def padBox : List Byte := zeros 62 ++ leBytes 2 (crc16 (zeros 62))

/-- R240, R245: the candidate row of a record: its address, or a violation. -/
def candidateRow (e : StepEnv) (g : Eng) (r : Rec) : Option Nat × Eng :=
  let slot := operandSlot e.x (e.d.opnd 3)
  let a := e.base 3 + 16 * recSrc r
  if slot.base + slot.bytes < a + 16 then (none, g)
  else
    let x := g.get a 16
    let idb := fld x.1 4 4
    if recId r < idb ∨ fld x.1 8 4 ≤ recId r - idb then (none, x.2)
    else (some (e.base 2 + 64 * (fld x.1 0 4 + (recId r - idb))), x.2)

/-- What writing the batch's records has come to: the engine's work, fault codes, whether a record was poisoned, and whether every write was
served. -/
structure BoxOut where
  g : Eng
  codes : List Nat := []
  bad : Bool := false
  ok : Bool := true
  boxes : List (List Byte) := []
  deriving DecidableEq, Repr

/-- R246, R249: record `i` of the batch written and passed to the Junesha die, poisoned by its candidate row, its source entry or a run
record that was merged (R102). -/
def boxStep (e : StepEnv) (base : Nat) (tieKey : Option Nat) (q : BoxOut) (x : (Rec × Bool) × Nat) : BoxOut :=
  if q.g.fmt.isSome || q.codes.contains 0x03 || !q.ok then q
  else
    let c := candidateRow e q.g x.1.1
    match c.1 with
    | none => { q with g := { c.2 with fmt := some (0x11, x.2) } }
    | some a =>
      let slot := operandSlot e.x (e.d.opnd 2)
      if a < slot.base ∨ slot.base + slot.bytes < a + 64 then { q with g := c.2, codes := q.codes ++ [0x03] }
      else
        let bad := c.2.hot || c.2.bus.tainted a 64
        let row := c.2.get a 64
        let bs := boxBytes row.1 x.1.1 x.1.2 (decide (tieKey = some x.1.1.1))
        let w := row.2.bus.put e.req (base + 64 + 64 * x.2) bs bad
        { q with g := { row.2.cool q.g.hot with bus := w.1 }, bad := q.bad || bad, ok := w.2, boxes := q.boxes ++ [bs] }

/-- R243: the pad records of a batch written. -/
def padStep (e : StepEnv) (base : Nat) (q : BoxOut) (i : Nat) : BoxOut :=
  if q.g.fmt.isSome || q.codes.contains 0x03 || !q.ok then q
  else
    let w := q.g.bus.put e.req (base + 64 + 64 * i) padBox q.g.hot
    { q with g := { q.g with bus := w.1 }, ok := w.2, boxes := q.boxes ++ [padBox] }

/-- R249, R427: a record leaves the SME: to the Junesha die over the monitor port, and in a manager as a record stream. -/
def State.passBox (s : State) (f : Nat) (bs : List Byte) : State :=
  let s := s.emit (.box f bs)
  if 1 < s.bus.topo.size ∧ s.bus.topo.own = 0 then s.token (.kydRecord f bs false) else s

/-- R259: VERDICT_WAIT: records complete, verdict not yet received. -/
def State.verdictWait (s : State) : State :=
  s.onBus (·.setFlag (smeB + 4) 8 (s.select.batches.any (fun x => x.recordsDone && !x.committed && x.needVerdict && x.verdict.isNone)))

/-- R249: a batch whose records are complete takes the frame's place; a verdict already received belongs to it. -/
def State.batchReady (s : State) (x : Batch) : State :=
  let x := { x with verdict := s.heldVerdict x.frame }
  let s := match s.select.batch x.frame with
    | some y => if y.committed then s else { s with select := s.select.put x }
    | none => { s with select := s.select.put x }
  s.verdictWait

/-- R251: the empty batch of an SM_BOXES with DIM0 = 0 or k = 0. -/
def State.boxesZero (s : State) (f : Nat) : State :=
  (s.passEnd f).batchReady { frame := f, bank := f % 2, recordsDone := true }

/-- R238 to R251: what SM_BOXES writes. -/
def smBoxesEff (e : StepEnv) (s : State) : Done :=
  let f := e.x.frame
  let k := smK e
  if k = 0 then { s := s.boxesZero f }
  else
    let m := smMerged e s.bus
    let v := m.kept.length
    let ties := if v = k then m.ties + m.tails k else 0
    let base := s.bus.batchBase f
    let tieKey := if 0 < ties then m.kept.head?.map (fun x => x.1.1) else none
    let q0 : BoxOut := { g := m.g }
    let q := if m.g.fmt.isSome then q0
      else (List.range (k - v)).foldl (fun q i => padStep e base q (v + i)) (m.kept.reverse.zipIdx.foldl (boxStep e base tieKey) q0)
    let g := { q.g with bus := smCounts m ties q.g.bus }
    let r := engDone s e smeB (smeB + 0x434) (smReads e s.bus) (if q.ok then g else { g with busErr := true })
    let stopped := r.codes.any (fun c => faultClass c = .stop) || !q.codes.isEmpty
    let s1 := if g.fmt.isSome then r.s.onBus (fun b =>
        let z := b.freshN (64 * k)
        (z.2.put e.req (base + 64) z.1 true).1) else r.s
    if stopped then { s := s1, codes := r.codes ++ q.codes, signals := false }
    else
      let s2 := (q.boxes.foldl (fun s bs => s.passBox f bs) s1).passEnd f
      { s := s2.batchReady { frame := f, bank := f % 2, slots := k, boxes := v, tieExcluded := ties, dupRemoved := Nat.min m.dup 65535,
                             recordsDone := true }
        codes := r.codes }

/-- R252: an SM_BOXES that finds its bank in use waits. -/
def State.countBankWait (s : State) (p : Fin 2) : State :=
  match s.live .sme p with
  | none => s
  | some (x, _) =>
    match fetchStep s.bus x x.step with
    | none => s
    | some d =>
      if d.unit = 6 ∧ d.op = 2 ∧ s.bankFree x.frame = false then s.countWait x.frame else s

/-- R238 SM_BOXES: what the step does. -/
def opSmBoxes : UnitOp :=
  smOp 2 4096 (fun e s => s.bankFree e.x.frame)
    (fun e s => if smK e = 0 then [] else smReads e s.bus ++ [engAcc 2 false [], engAcc 3 false []]) smBoxesEff
    (fun e s => s.boxesZero e.x.frame)

/-- R238 SM_BOXES. -/
def runSmBoxes (p : Fin 2) (s : State) : Host.Outcome State Fault Refusal :=
  .next (runStep .sme p opSmBoxes (s.main fun s => s.countBankWait p))

-- Verdict and commit (R247 to R251) ------------------------------------------------------------------------------------------------------

/-- R295: a verdict taken into the guards of every I/O die present. A frame's SEQ is entered when its batch commits. -/
def Bus.holdVerdict (b : Bus) (v : Verdict) : Bus :=
  (ioDies b.variant).foldl (fun b d => b.setRegs (guardAt d v.frame) [v.frame, 0, v.token.toNat, b2n v.valid]) b

/-- R249: a verdict arrives in the SME's header buffer and the guards. One on its way at entry to the safe state is revoked there too
(R342). -/
def State.takeVerdict (s : State) (v : Verdict) : State :=
  let q := s.select
  let q := { q with
    verdicts := q.verdicts.filter (fun w => decide (w.frame ≠ v.frame ∧ v.frame < w.frame + 8)) ++ [v],
    batches := q.batches.map (fun x => if x.frame = v.frame ∧ x.committed = false then { x with verdict := some v } else x) }
  ({ s with select := q }.onBus (·.holdVerdict { v with valid := v.valid && !s.sd.latched })).verdictWait

/-- R249 VERDICT_RECEIVED. -/
def execVerdictReceived (v : Verdict) (s : State) : Host.Outcome State Fault Refusal := .next (s.main fun s => s.takeVerdict v)

/-- R248: the place of a REASON in the order. -/
def reasonRank (r : Nat) : Nat :=
  if r = 0x0203 then 0 else if 0x0100 ≤ r ∧ r < 0x0200 then 1 else if r = 0x0202 then 2 else if r = 0 then 0x20000 else 3 + r

/-- R248: the first of several causes. -/
def firstReason (l : List Nat) : Nat := l.foldl (fun m r => if reasonRank r < reasonRank m then r else m) 0

/-- R248, R250, R251: the causes of a batch committed at `now`. The state of the device is one of them for a batch without a verdict, and
in the safe state for one of a frame that was abandoned or never issued its SM_BOXES (log entry 155). -/
def State.reasons (s : State) (x : Batch) (late : Bool) : List Nat :=
  (match x.verdict with | some v => [v.reason.toNat] | none => [])
    ++ (match x.cause with | some c => [0x0100 + c] | none => [])
    ++ (if late then [0x0202] else [])
    ++ (match x.verdict with
        | some _ => if x.zeroShape && s.sd.latched then [0x0203] else []
        | none => if s.sd.latched then [0x0203] else if s.sd.state = .run then [] else [0x0206])

/-- R247: the header of a batch, its CRC field zero. The fields taken from a verdict that never came are free. -/
def batchHeader (s : State) (x : Batch) (seq now : Nat) (valid late : Bool) (reason : Nat) : List Byte :=
  let w (i : Nat) : Nat := (Config.freeWord (s.bus.free + i)).toNat
  let v : Nat × Nat × Nat × Nat := match x.verdict with
    | some v => (v.cells.toNat, v.missed.toNat, v.unsupported.toNat, v.token.toNat)
    | none => (w 0, w 1, w 2, w 3)
  leBytes 4 x.frame ++ leBytes 4 seq ++ leBytes 8 (s.bus.tref x.frame) ++ leBytes 2 x.boxes ++ leBytes 2 x.slots
    ++ leBytes 2 (b2n valid + 2 * b2n (s.fseq.degraded.contains x.frame) + 4 * b2n (decide (x.boxes = 0)) + 8 * b2n (decide (0 < x.tieExcluded))
        + 16 * b2n late)
    ++ leBytes 2 reason ++ leBytes 4 x.tieExcluded ++ leBytes 4 v.1 ++ leBytes 4 v.2.1 ++ leBytes 2 v.2.2.1 ++ leBytes 2 x.dupRemoved
    ++ leBytes 8 now ++ leBytes 4 v.2.2.2 ++ leBytes 1 s.bus.topo.own ++ zeros 11

/-- R259: LAUNCH_CFG: enabled, on a port that the variant has; its port and queue. -/
def Bus.launchOn (b : Bus) : Bool := b.flag (smeB + 0x200) 31 && (decide (b.field (smeB + 0x200) 19 16 < 8) || b.variant.isX2)
def Bus.launchPort (b : Bus) : Nat := b.field (smeB + 0x200) 19 16
def Bus.launchQueue (b : Bus) : Nat := b.field (smeB + 0x200) 12 10
def Bus.launchTime (b : Bus) (f : Nat) : Nat := b.tref f + Nat.min 100000 (b.reg (smeB + 0x204)) * 1000

/-- RFC 791: the header checksum over 16-bit big-endian words. -/
def ipChecksum (bs : List Byte) : Nat :=
  let t := lsum ((chunks 2 bs.length bs).map beNat)
  let t := t % 65536 + t / 65536
  0xFFFF - (t % 65536 + t / 65536)

/-- R256: a UDP datagram of the SME on port `p`: the manual states addresses and ports; identification, service and life-time bytes and
the UDP checksum are free. -/
def smeDatagram (b : Bus) (p : Nat) (payload : List Byte) : List Byte × Bus :=
  let (fr, b) := b.freshN 6
  let len := payload.length
  let mac (lo hi : Nat) : List Byte := beBytes 2 (hi % 65536) ++ beBytes 4 lo
  let ip0 := beBytes 1 0x45 ++ fr.take 1 ++ beBytes 2 (28 + len) ++ sub fr 1 2 ++ zeros 2 ++ sub fr 3 1 ++ beBytes 1 17
  let ipA := beBytes 4 (b.reg (ethB p + 0x10)) ++ beBytes 4 (b.reg (smeB + 0x210))
  let ip := ip0 ++ beBytes 2 (ipChecksum (ip0 ++ zeros 2 ++ ipA)) ++ ipA
  (mac (b.reg (smeB + 0x208)) (b.reg (smeB + 0x20C)) ++ mac (b.reg (ethB p + 8)) (b.reg (ethB p + 12)) ++ beBytes 2 0x0800 ++ ip
    ++ beBytes 2 (b.field (smeB + 0x214) 31 16) ++ beBytes 2 (b.field (smeB + 0x214) 15 0) ++ beBytes 2 (8 + len) ++ sub fr 4 2 ++ payload, b)

/-- R288: port `p` sends: enabled, its MODE kept on, and its link up. -/
def Bus.portUp (b : Bus) (p : Nat) : Bool :=
  b.flag (ethB p) 31 && decide (b.field (ethB p) 30 29 < 2) && b.flag (ethB p + 4) 30 && (decide (p < 8) || b.variant.isX2)

/-- R256, R288: a frame of the SME put at the end of its queue, or dropped where the link is down. -/
def State.toPort (s : State) (p q : Nat) (f : QFrame) : State :=
  if s.bus.portUp p then
    { s with net := { s.net with ports := modAt (fun x => { x with queues := x.queues ++ [(q, f)] }) s.net.ports p } }
  else s.onBus (·.inc (ethB p + 0x10C))

/-- R256: the datagrams of a committed batch queued; the first carries the launch time. -/
def State.launch (s : State) (x : Batch) (seq : Nat) : State :=
  let bytes := 64 + 64 * x.slots
  let n := ceilDiv bytes 1024
  let p := s.bus.launchPort
  let data := s.bus.rdN (s.bus.localAddr (s.bus.batchBase x.frame)) bytes
  (List.range n).foldl (fun (s : State) i =>
    let hdr := leBytes 4 x.frame ++ leBytes 4 seq ++ leBytes 2 i ++ leBytes 2 n ++ leBytes 4 bytes
    let d := smeDatagram s.bus p (hdr ++ (data.drop (1024 * i)).take 1024)
    let qf : QFrame :=
      { bytes := d.1, launch := if i = 0 then some (s.bus.launchTime x.frame) else none, origin := .batch x.frame seq i n }
    { s with bus := d.2 }.toPort p s.bus.launchQueue qf) s

/-- R253, R426: the guard of die `d` lets a batch header leave. -/
def Bus.guardOk (b : Bus) (d : Nat) (hdr : List Byte) : Bool :=
  let f := fld hdr 0 4
  let a := guardAt d f
  decide (b.reg a = f ∧ b.reg (a + 4) = fld hdr 4 4 ∧ b.reg (a + 8) = fld hdr 0x30 4) && (!(bit (fld hdr 0x14 2) 0) || b.flag (a + 12) 0)

/-- R253, R426: a batch may leave by die `d`. Only the system manager's batches leave. A batch committed without a verdict has none
to equal, and does not. -/
def State.mayLeave (s : State) (d : Nat) (hdr : List Byte) : Bool :=
  decide (s.bus.topo.size ≤ 1 ∨ s.bus.topo.own = 0) && s.select.verdicts.any (fun v => decide (v.frame % 2 ^ 32 = fld hdr 0 4))
    && s.bus.guardOk d hdr

/-- R249 to R257: the batch of frame `f` committed at `now`. -/
def State.commit (s : State) (x : Batch) (now : Nat) : State :=
  let f := x.frame
  let dl := match x.verdict with | some v => v.deadline | none => s.bus.tref f + s.deadlineNs
  let late := decide (dl ≤ now)
  let valid := (match x.verdict with | some v => v.valid | none => false) && !late && decide (x.slots ≠ 0) && x.cause.isNone
  let reason := if valid then 0 else firstReason (s.reasons x late)
  let seq := s.bus.reg (smeB + 0x20)
  let hdr := batchHeader s x seq now valid late reason
  let base := s.bus.batchBase f
  let recs := s.bus.rdN (s.bus.localAddr (base + 64)) (64 * x.slots)
  let w := s.bus.put (.unit 55) base (hdr.take 60 ++ leBytes 4 (crc32c (hdr ++ recs)))
  let b := w.1
  let b := if x.verdict.isSome then b else { b with free := b.free + 4 }
  let cnt (c : Bool) (i : Nat) (b : Bus) : Bus := if c then b.inc (smeB + 0x400 + 4 * i) else b
  let b := cnt late 3 (cnt (decide (x.boxes = 0)) 2 (cnt valid 1 (b.inc (smeB + 0x400))))
  let b := (b.setReg (smeB + 0x20) ((seq + 1) % 2 ^ 32)).setReg (smeB + 0x24) f
  let b := (ioDies b.variant).foldl (fun b d =>
    if x.verdict.isSome && decide (b.reg (guardAt d f) = f % 2 ^ 32) then b.setReg (guardAt d f + 4) seq else b) b
  let b := if w.2 then b else b.raise (smeB + 4) 30
  let y := { x with
    committed := true, seq := BitVec.ofNat 32 seq
    ring0 := !(w.2 && b.flag (smeB + 0x110) 31)
    ring1 := !(w.2 && b.variant.isX2 && b.flag (smeB + 0x150) 31)
    eth := !(w.2 && b.launchOn) }
  let q := s.select.put y
  let s := { s with
    bus := b
    select := { q with batches := q.batches.filter (fun z => !(z.disposed && decide (z.frame + 4 < f))) }
    fseq := s.fseq.modFrame f (fun z => { z with committed := true }) }
  let s := s.verdictWait
  if y.eth then s
  else
    let s := if s.bus.launchTime f ≤ now && s.mayLeave (s.bus.launchPort / 8) (hdr.take 64) then s.onBus (·.note (smeB + 0x430) (smeB + 4) 28) else s
    if s.bus.portUp s.bus.launchPort then s.launch y seq
    else { s.launch y seq with select := s.select.put { y with eth := true } }

/-- R249 BATCH_COMMIT: at the later of verdict and last record. -/
def runBatchCommit (f now : Nat) (s : State) : Host.Outcome State Fault Refusal :=
  .next (s.main fun s =>
    match s.select.batch f with
    | none => s
    | some x =>
      if !s.inSweep && x.recordsDone && !x.committed && (x.verdict.isSome || !x.needVerdict) then
        if s.bankFree f then (s.at now).commit x now else s.countWait f
      else s)

-- Delivery (R253 to R255) --------------------------------------------------------------------------------------------------------------------

/-- R253, R295: the guard's answer counted; a refusal is reported to the Junesha die. -/
def State.guard (s : State) (d f : Nat) (ok : Bool) : State :=
  if ok then s.onBus (·.inc (egrdB d + 0x200)) else (s.onBus (·.inc (egrdB d + 0x204))).emit (.guardRefuse f)

/-- R258: the registers of ring `e`. -/
abbrev ringB (e : Nat) : Nat := smeB + 0x100 + 0x40 * e

/-- R259: the slot count of ring `e`. -/
def Bus.ringSlots (b : Bus) (e : Nat) : Nat :=
  let l := b.field (ringB e + 0x10) 2 0
  2 ^ (if 1 ≤ l ∧ l ≤ 6 then l else 3)

/-- R254: PROD_IDX − CONS_IDX of ring `e`. -/
def Bus.ringFill (b : Bus) (e : Nat) : Nat := (b.reg (ringB e + 0x14) + 2 ^ 32 - b.reg (ringB e + 0x18)) % 2 ^ 32

/-- R102: the poison of device memory [a, a + n) taken to the host memory at `h` behind endpoint `e`, where its bytes have been written. -/
def Bus.hostTaint (b : Bus) (e h a n : Nat) : Bus :=
  let gs := (b.poison.filter (fun g => decide (a < g * 8 + 8 ∧ g * 8 < a + n))).map (fun g => (h + (g * 8 - a)) / 8)
  if e = 0 then { b with hostBad0 := gs.foldl nins b.hostBad0 } else { b with hostBad1 := gs.foldl nins b.hostBad1 }

/-- R254: a batch at `a` copied into the next slot of ring `e`; poisoned granules travel as poisoned TLPs (R102, R272). -/
def Bus.ringWrite (b : Bus) (e a : Nat) (data : List Byte) : Bus :=
  let prod := b.reg (ringB e + 0x14)
  let h := b.reg64 (ringB e) + prod % b.ringSlots e * 0x41000
  let b := (b.putHost e h data).hostTaint e h a data.length
  let next := (prod + 1) % 2 ^ 32
  let b := (b.putHost e (b.reg64 (ringB e + 8)) (leBytes 4 next)).setReg (ringB e + 0x14) next
  if b.flag (ringB e + 0x10) 30 then b.emit (.msix ⟨e % 2, Nat.mod_lt _ (by decide)⟩ (b.field (ringB e + 0x10) 15 8)) else b

/-- R252: a batch disposed of on ring `e`. -/
def State.ringDone (s : State) (x : Batch) (e : Nat) : State :=
  { s with select := s.select.put (if e = 0 then { x with ring0 := true } else { x with ring1 := true }) }

/-- R253 to R255, R450: the batch `x` offered to ring `e`. -/
def State.ringCopy (s : State) (e : Nat) (x : Batch) : State :=
  let at' := s.bus.localAddr (s.bus.batchBase x.frame)
  let data := s.bus.rdN at' (64 + 64 * x.slots)
  let ok := s.mayLeave e data
  let s := (s.guard e x.frame ok).ringDone x e
  if ok = false then s
  else if s.bus.ringSlots e ≤ s.bus.ringFill e ∨ s.plat.pcieDown.contains e = true ∨ s.plat.pcieReset.contains e = true then
    s.onBus (·.note (smeB + 0x420 + 4 * e) (smeB + 4) 29)
  else s.onBus (·.ringWrite e at' data)

/-- R254 RING_COPY. -/
def runRingCopy (e : Fin 2) (f : Nat) (s : State) : Host.Outcome State Fault Refusal :=
  .next (s.main fun s =>
    match s.select.batch f with
    | none => s
    | some x => if !s.inSweep && x.committed && !(if e.val = 0 then x.ring0 else x.ring1) then s.ringCopy e.val x else s)

/-- R255: CONS_IDX of ring `e` written by the host. -/
def State.consIdx (s : State) (e v : Nat) : State :=
  s.onBus (fun b =>
    if b.ringSlots e < (b.reg (ringB e + 0x14) + 2 ^ 32 - v % 2 ^ 32) % 2 ^ 32 then b.inc (smeB + 0x428)
    else b.setReg (ringB e + 0x18) v)

/-- R255 CONS_IDX_WRITE. RING[1] is unmapped in X1 variants. -/
def execConsIdxWrite (e : Fin 2) (v : Word) (s : State) : Host.Outcome State Fault Refusal :=
  .next (s.main fun s => if e.val = 0 ∨ s.bus.variant.isX2 = true then s.consIdx e.val v.toNat else s)

end Sys2Proof.Machine
end

