-- ==== Sys2Proof/Machine/Network.lean ====
section
/-! DEFINITION. Device time and the servo (R276 to R285), the embedded switch and its transparent clock (R286, R287), the mirror and the
policer on the way in (R294, R297), gate schedules and launch times (R289 to R292), the egress guard and the firmware buckets on the
way out (R295, R296). -/

namespace Sys2Proof.Machine

-- Device time (R276, R277, R284) -----------------------------------------------------------------------------------------------

/-- Device time in 2^-16 ns. -/
def Net.fine (n : Net) : Int := (n.time * 65536 + n.frac : Nat)

/-- Device time at `t`, in 2^-16 ns. -/
def Net.setFine (n : Net) (t : Nat) : Net := { n with time := t / 65536, frac := t % 65536 }

/-- R276: device time advanced by 2 ns × (1 + RATE): one 500 MHz tick. What lies below 2^-16 ns is kept for the ticks to come. -/
def Net.tick (n : Net) : Net :=
  let x : Rat := (n.fine : Rat) + n.rest + (n.rate + 1) * 131072
  { n.setFine x.floor.toNat with rest := x - x.floor }

/-- R277: device time stepped to `t`, in 2^-16 ns: whatever is measured by the time elapsed since an instant moves with it. -/
def Net.stepTo (n : Net) (t : Nat) : Net :=
  let d : Int := (t / 65536 : Nat) - (n.time : Int)
  { n.setFine t with
    lastAdj := n.lastAdj.map (· + d), lastMeas := n.lastMeas + d, holdSince := n.holdSince + d
    macs := n.macs.map (fun e => (e.1, (e.2.1, e.2.2.1, e.2.2.2 + d)))
    ports := n.ports.map (fun p => { p with busyUntil := p.busyUntil + 1000 * d, fwAt := p.fwAt + d, inAt := p.inAt + d }) }

/-- R284: a step is permitted. -/
def State.stepOk (s : State) : Bool := !(s.bus.flag fseqB 0) && decide (s.sd.state ≠ .armed) && decide (s.sd.state ≠ .run)

/-- R283, R284: a step refused. -/
def State.stepRefused (s : State) : State := s.onBus (·.note (timeB 0 + 0x10C) (timeB 0 + 4) 29)

/-- R285: TIME0 reports to the Junesha die. -/
def State.timeReport (s : State) : State := s.emit (.timeReport (BitVec.ofNat 32 (s.bus.reg (timeB 0 + 4))))

/-- R284: TIME_SET: the step recorded until the next alignment, or refused. -/
def State.timeSet (s : State) (v : Nat) : State :=
  if s.stepOk then { s with net := { s.net with held := some ((v * 65536 : Nat) - s.net.fine, false), decided := s.net.fine } }
  else s.stepRefused

/-- R284 TIME_SET. -/
def execTimeSet (v : BitVec 64) (s : State) : Host.Outcome State Fault Refusal := .next (s.main fun s => s.timeSet v.toNat)

/-- R277: a held step applied to TIME0 and every copy, or refused at its alignment. A pending Sync stamped since the decision is
discarded with it. -/
def State.align (s : State) : State :=
  match s.net.held with
  | none => s
  | some (o, _) =>
    let n := { s.net with held := none }
    if s.stepOk then
      let t := (n.fine + o).toNat
      let p := match n.syncPend with
        | some m => if n.decided ≤ m.ingress then none else some m
        | none => none
      { s with net := { n.stepTo t with syncPend := p }
               bus := (s.bus.inc (timeB 0 + 0x108)).setFlag (timeB 0 + 4) 28 true }
    else { s with net := n }.stepRefused

/-- R277 TIME_ALIGN: every 1 ms. -/
def execTimeAlign (now : Nat) (s : State) : Host.Outcome State Fault Refusal := .next (s.main fun s => (s.at now).align)

-- The servo (R282, R283, R285) ---------------------------------------------------------------------------------------------------

/-- R299: the code of a servo state. -/
def Servo.code : Servo → Nat
  | .free => 0
  | .acquire => 1
  | .locked => 2
  | .holdover => 3

/-- R283, R285: a change of state, reported. -/
def State.setServo (s : State) (v : Servo) : State :=
  if s.net.servo = v then s
  else { s with net := { s.net with servo := v }, bus := s.bus.setField (timeB 0 + 4) 1 0 v.code }.timeReport

/-- R299: SLAVE_PORT, none for a grandmaster. -/
def Bus.slavePort (b : Bus) : Option Nat := let p := b.field (timeB 0 + 0x18) 4 0; if p < 16 then some p else none

/-- R283: the state that SERVO_EN and SLAVE_PORT give. -/
def State.servoStart (s : State) : State :=
  s.setServo (if s.bus.flag (timeB 0) 0 && s.bus.slavePort.isSome then .acquire else .free)

/-- R283: SERVO_EN written. -/
def State.servoEn (s : State) (v : Bool) : State :=
  if s.bus.flag (timeB 0) 0 = v then s else (s.onBus (·.setFlag (timeB 0) 0 v)).servoStart

/-- R283 SERVO_EN. -/
def execServoEn (v : Bool) (s : State) : Host.Outcome State Fault Refusal := .next (s.main fun s => s.servoEn v)

/-- R284, R299: SERVO_RESET. -/
def State.servoReset (s : State) : State :=
  if s.stepOk then ({ s with net := { s.net with integ := 0 } }.onBus (·.setFlag (timeB 0 + 4) 28 false)).servoStart else s.stepRefused

/-- R284 SERVO_RESET. -/
def execServoReset (s : State) : Host.Outcome State Fault Refusal := .next (s.main fun s => s.servoReset)

/-- A rational held in [−m, m]. -/
def clampR (m x : Rat) : Rat := if x < -m then -m else if m < x then m else x

/-- R298: RATE in 2^-8 ppb, rounded to nearest. -/
def rateCode (r : Rat) : Nat := toU 32 ((r * 256000000000 + 1 / 2).floor)

/-- R283: adjust(o), `o` in ns. Before the first adjustment dt is not stated: it is free. -/
def State.adjust (s : State) (o : Rat) (now : Nat) : State :=
  let k (i : Nat) : Rat := fvalRat (fval fmt32 (s.bus.reg (timeB 0 + 0x20 + 4 * i)))
  let ppm : Rat := 1 / 10000
  let i := clampR ppm (s.net.integ + k 1 * o)
  let target := clampR ppm (-(k 0 * o) - i)
  let dt : Rat := match s.net.lastAdj with
    | some t => (((now : Int) - t : Int) : Rat) / 1000000000
    | none => ((Config.freeWord s.bus.free).toNat : Rat) / 1000000000
  let lim := (s.bus.reg (timeB 0 + 0x28) : Rat) / 1000000000 * dt
  let r := s.net.rate + clampR lim (target - s.net.rate)
  { s with net := { s.net with integ := i, rate := r, lastAdj := some now }
           bus := { s.bus.setReg (timeB 0 + 0x14) (rateCode r) with free := s.bus.free + 1 } }

/-- R277, R283: what the servo does on a measurement `o` (2^-16 ns) whose Sync was stamped at `t2`. -/
def State.measure (s : State) (o t2 : Int) (now : Nat) : State :=
  if s.net.held.isSome ∧ s.net.decided ≤ t2 then s
  else
    let s := (s.onBus (·.setReg64 (timeB 0 + 0x40) (toU 64 o)))
    let s := { s with net := { s.net with lastMeas := now } }
    let far := decide ((s.bus.reg (timeB 0 + 0x1C) : Int) * 65536 < o.natAbs)
    let ns : Rat := (o : Rat) / 65536
    match s.net.servo with
    | .free => s
    | .acquire =>
      let stepped := s.bus.flag (timeB 0 + 4) 28
      if far && !stepped && s.stepOk then
        { s with net := { s.net with held := some (-o, true), decided := s.net.fine, lockN := 0, integ := 0 }
                 bus := s.bus.setFlag (timeB 0 + 4) 28 true }
      else
        let s := if far && !stepped then s.stepRefused else s
        let s := s.adjust ns now
        let n := if far then 0 else s.net.lockN + 1
        let want := let c := s.bus.field (timeB 0 + 0x18) 19 16; if c = 0 then 8 else c
        let s := { s with net := { s.net with lockN := n } }
        if want ≤ n then s.setServo .locked else s
    | _ =>
      let s := (s.setServo .locked).adjust ns now
      if far then
        let s := (s.onBus (·.note (timeB 0 + 0x110) (timeB 0 + 4) 31)).timeReport
        s.onSd fun s => { s.logEvent 0x4000 0 4 0 with sd := { s.sd with offsetAlarms := s.sd.offsetAlarms + 1 } }
      else s

/-- R282: the measurement of a Sync on port `p`: o = t2 − t1 − c − MEAN_LINK_DELAY − ASYM. -/
def Bus.offset (b : Bus) (p : Nat) (t2 t1 c : Int) : Int :=
  t2 - t1 - c - (b.reg (timeB 0 + 0x30) : Int) - sext 32 (b.reg (ethB p + 0x1C))

/-- R282: a message on SLAVE_PORT in DOMAIN. -/
def Bus.fromMaster (b : Bus) (p : Nat) (domain : Byte) : Bool :=
  decide (b.slavePort = some p) && decide (domain.toNat = b.field (timeB 0 + 0x18) 31 24)

/-- R282 PTP_SYNC. -/
def execPtpSync (m : SyncMsg) (now : Nat) (s : State) : Host.Outcome State Fault Refusal :=
  .next (s.main fun s =>
    if s.bus.fromMaster m.port.val m.domain = false then s.at now
    else
      let s := (s.at now).onBus (·.inc (timeB 0 + 0x100))
      let s := if s.net.syncPend.isSome then s.onBus (·.inc (timeB 0 + 0x104)) else s
      if m.twoStep then { s with net := { s.net with syncPend := some m } }
      else { s with net := { s.net with syncPend := none } }.measure (s.bus.offset m.port.val m.ingress m.origin m.correction) m.ingress now)

/-- R282, R283 PTP_FOLLOW_UP. -/
def execPtpFollowUp (m : FollowUpMsg) (now : Nat) (s : State) : Host.Outcome State Fault Refusal :=
  .next (s.main fun s =>
    let s := s.at now
    match s.net.syncPend with
    | none => s
    | some y =>
      if s.bus.fromMaster m.port.val m.domain && decide (y.port = m.port ∧ y.seqId = m.seqId) then
        { s with net := { s.net with syncPend := none } }.measure
          (s.bus.offset m.port.val y.ingress m.origin (y.correction + m.correction)) y.ingress now
      else s)

/-- R285 SYNC_TIMEOUT. -/
def execSyncTimeout (now : Nat) (s : State) : Host.Outcome State Fault Refusal :=
  .next (s.main fun s =>
    let s := s.at now
    if s.net.servo = .locked ∧ s.net.lastMeas + s.bus.field (timeB 0 + 0x2C) 15 0 * 1000000 ≤ now then
      { s.onBus (·.inc (timeB 0 + 0x114)) with net := { s.net with holdSince := now } }.setServo .holdover
    else s)

/-- R285, R370 HOLDOVER_ALARM: in RUN it enters the safe state, subcause TIME_HOLDOVER. -/
def execHoldoverAlarm (now : Nat) (s : State) : Host.Outcome State Fault Refusal :=
  .next (s.main fun s =>
    let s := s.at now
    if s.net.servo = .holdover ∧ s.net.holdSince + s.bus.field (timeB 0 + 0x2C) 31 16 * 1000000000 < now then
      let s := (s.onBus (·.raise (timeB 0 + 4) 30)).timeReport
      if s.sd.state = .run then s.trip 6 false 0x03000000 else s
    else s)

-- Frames (R286, R287) ----------------------------------------------------------------------------------------------------------------

/-- A received or queued frame, from its destination address on, without FCS: the addresses, its PCP if tagged, its EtherType, and
where its payload starts. -/
structure EthHead where
  dst : Nat
  src : Nat
  pcp : Option Nat
  etype : Nat
  at' : Nat
  deriving DecidableEq, Repr

/-- IEEE 802.3, 802.1Q. -/
def ethHead (bs : List Byte) : EthHead :=
  let e := bfld bs 12 2
  if e = 0x8100 then { dst := bfld bs 0 6, src := bfld bs 6 6, pcp := some (bits (bfld bs 14 2) 15 13), etype := bfld bs 16 2, at' := 18 }
  else { dst := bfld bs 0 6, src := bfld bs 6 6, pcp := none, etype := e, at' := 14 }

/-- An IPv4 UDP packet in a frame: addresses, UDP destination port, offset of the UDP header and its length field. -/
structure UdpHead where
  srcIp : Nat
  dstIp : Nat
  dstPort : Nat
  at' : Nat
  len : Nat
  deriving DecidableEq, Repr

/-- RFC 791, RFC 768. -/
def udpHead (bs : List Byte) : Option UdpHead :=
  let h := ethHead bs
  let ihl := 4 * bits (bfld bs h.at' 1) 3 0
  let u := h.at' + ihl
  if h.etype = 0x0800 ∧ bits (bfld bs h.at' 1) 7 4 = 4 ∧ bfld bs (h.at' + 9) 1 = 17 ∧ bfld bs (h.at' + 6) 2 % 8192 = 0
      ∧ u + 8 ≤ bs.length then
    some { srcIp := bfld bs (h.at' + 12) 4, dstIp := bfld bs (h.at' + 16) 4, dstPort := bfld bs (u + 2) 2, at' := u, len := bfld bs (u + 4) 2 }
  else none

/-- The payload of an IPv6 packet past its extension headers, of the kind `next` at offset `i`: RFC 8200, at most `fuel` of them. -/
def v6Payload (bs : List Byte) : Nat → Nat → Nat → Option (Nat × Nat)
  | 0, _, _ => none
  | fuel + 1, next, i =>
    if next = 0 ∨ next = 43 ∨ next = 60 then v6Payload bs fuel (bfld bs i 1) (i + 8 + 8 * bfld bs (i + 1) 1)
    else if next = 44 then (if bfld bs (i + 2) 2 / 8 = 0 then v6Payload bs fuel (bfld bs i 1) (i + 8) else none)
    else some (next, i)

/-- The UDP header of an IPv4 or IPv6 packet in a frame: where it starts, and its destination port. -/
def udpOf (bs : List Byte) : Option (Nat × Nat) :=
  let h := ethHead bs
  if h.etype = 0x86DD ∧ bits (bfld bs h.at' 1) 7 4 = 6 then
    match v6Payload bs 8 (bfld bs (h.at' + 6) 1) (h.at' + 40) with
    | some (17, u) => if u + 8 ≤ bs.length then some (u, bfld bs (u + 2) 2) else none
    | _ => none
  else (udpHead bs).map (fun u => (u.at', u.dstPort))

/-- R287: where the PTP event message of a frame starts: EtherType 0x88F7, or UDP port 319; messageType 0 to 3. -/
def ptpEvent (bs : List Byte) : Option Nat :=
  let h := ethHead bs
  let p := if h.etype = 0x88F7 then some h.at' else match udpOf bs with
    | some (u, port) => if port = 319 then some (u + 8) else none
    | none => none
  match p with
  | some i => if bfld bs i 1 % 16 < 4 ∧ i + 34 ≤ bs.length then some i else none
  | none => none

/-- Bytes put over a frame at an offset. -/
def patch (bs : List Byte) (off : Nat) (v : List Byte) : List Byte := bs.take off ++ v ++ bs.drop (off + v.length)

/-- R287: the residence time added to the correctionField, and whether it overflowed. -/
def transparent (bs : List Byte) (i : Nat) (residence : Int) : List Byte × Bool :=
  let c := sext 64 (bfld bs (i + 8) 8) + residence
  let tooBig := decide (2 ^ 63 ≤ c)
  let bs := patch bs (i + 8) (beBytes 8 (if tooBig then 0x7FFFFFFFFFFFFFFF else toU 64 c))
  (match udpHead bs with
    | some u => patch bs (u.at' + 6) (zeros 2)
    | none => bs, tooBig)

-- Reception (R279, R286, R294, R297) -----------------------------------------------------------------------------------------------------

/-- The MAC address of a port. -/
def Bus.portMac (b : Bus) (p : Nat) : Nat := b.reg (ethB p + 8) + 2 ^ 32 * b.field (ethB p + 12) 15 0

/-- R301: a port that is enabled in a mode of R288. -/
def Bus.portOn (b : Bus) (p : Nat) : Bool := b.flag (ethB p) 31 && decide (b.field (ethB p) 30 29 < 2) && (decide (p < 8) || b.variant.isX2)

/-- R294: a filter of the die passes UDP port `udp` of sensor port `p`. -/
def Bus.mirrored (b : Bus) (p udp : Nat) : Bool :=
  (List.range 16).any (fun i =>
    let w := b.reg (mirrB (p / 8) + 4 * i)
    bit w 31 && decide (bits w 19 16 = p % 8 ∧ bits w 15 0 = udp))

/-- R294: the copy for the Junesha die, with its stamp and the drop counts of the die's 8 ports, or its loss in MIRROR_DROP. -/
def State.mirrorCopy (s : State) (p : Nat) (bs : List Byte) (stamp : Int) (fits : Bool) : State :=
  match udpOf bs with
  | none => s
  | some u =>
    if s.bus.mirrored p u.2 = false then s
    else if fits then s.emit (.mirror p bs stamp (tab 8 (fun i => (s.net.ports.getD (p / 8 * 8 + i) {}).drops)))
    else
      { s.onBus (·.inc (ethB p + 0x128)) with
        net := { s.net with ports := modAt (fun x => { x with drops := x.drops + 1 }) s.net.ports p } }

/-- R286: the source address learned, where the table has room. -/
def Net.learn (n : Net) (d mac p : Nat) (now : Int) : Net :=
  if bit mac 40 then n
  else
    let k := BitVec.ofNat 48 mac
    if n.macs.any (fun e => decide (e.1 = d ∧ e.2.1 = k)) then
      { n with macs := n.macs.map (fun e => if e.1 = d ∧ e.2.1 = k then (d, (k, p, now)) else e) }
    else if (n.macs.filter (fun e => decide (e.1 = d))).length < 1024 then { n with macs := n.macs ++ [(d, (k, p, now))] } else n

/-- R286: the port a learned address stands on. -/
def Net.portOf (n : Net) (d mac : Nat) : Option Nat := (n.macs.find? (fun e => decide (e.1 = d ∧ e.2.1 = BitVec.ofNat 48 mac))).map (·.2.2.1)

/-- R286, R288: a frame put at the end of its queue of port `p`, or dropped where the link is down. -/
def State.forward (s : State) (p : Nat) (bs : List Byte) (o : Origin) : State :=
  let q := match (ethHead bs).pcp with
    | some v => v
    | none => s.bus.field (ethB p) 2 0
  s.toPort p q { bytes := bs, origin := o }

/-- R286: the ports that a frame received on `p` leaves by, and whether it also goes to the internal port. -/
def State.route (s : State) (p : Nat) (h : EthHead) : List Nat × Bool :=
  let d := p / 8
  let others := (tab 8 (fun i => 8 * d + i)).filter (fun x => decide (x ≠ p) && s.bus.portOn x)
  if h.dst / 16 = 0x0180C200000 then ([], true)
  else if h.dst = s.bus.portMac p then ([], true)
  else if bit h.dst 40 then (others, true)
  else match s.net.portOf d h.dst with
    | some x => (others.filter (fun y => decide (y = x)), false)
    | none => (others, true)

/-- R31, R33, R286: a frame at the internal port of die `p / 8`. -/
def State.toInternal (s : State) (p : Nat) (bs : List Byte) (stamp : Int) : State :=
  let s := s.emit (.toInternal (p / 8) bs)
  match udpHead bs with
  | none => s
  | some u => s.sensorPacket p (u.srcIp % 65536) u.dstPort (sub bs (u.at' + 8) (u.len - 8)) (stamp / 65536)

/-- R279: the corrected ingress stamp, 2^-16 ns, of a frame whose timestamp point came at `raw` ns: of that instant, not after `now`, the
time-engine tick. -/
def Bus.ingressStamp (b : Bus) (p raw now : Nat) : Int := ((Nat.min raw now / 2 * 131072 : Nat) : Int) - (b.reg (ethB p + 0x14) : Int)

/-- A token bucket that fills at `rate` Mb/s and holds `burst` bytes, brought from device time `t` to `now`. -/
def filled (rate burst had : Nat) (t : Int) (now : Nat) : Nat := Nat.min (burst * 8000) (had + rate * ((now : Int) - t).toNat)

/-- What a frame takes from a bucket: its bits, FCS included. -/
def frameCost (bs : List Byte) : Nat := (bs.length + 4) * 8000

/-- R297: the ingress policer of port `p` measures a frame against IN_RATE: whether it passes. `burst`: the bytes that it lets by at once
(log entry 75). A frame that is dropped takes nothing. -/
def State.police (s : State) (p : Nat) (bs : List Byte) (burst now : Nat) : Bool × State :=
  let rate := s.bus.reg (ethB p + 0x20)
  let x := s.net.ports.getD p {}
  if rate = 0 then (true, s)
  else
    let had := filled rate burst x.inTokens x.inAt now
    let ok := decide (frameCost bs ≤ had)
    let y := { x with inTokens := if ok then had - frameCost bs else had, inAt := now }
    (ok, { s with net := { s.net with ports := modAt (fun _ => y) s.net.ports p } })

/-- R279, R286, R294, R297: a frame received on sensor port `p`, whose timestamp point came at `raw` ns. -/
def State.received (s : State) (p : Nat) (bs : List Byte) (raw : Nat) (fits : Bool) (burst now : Nat) : State :=
  let stamp := s.bus.ingressStamp p raw now
  let t := (s.mirrorCopy p bs stamp fits).police p bs burst now
  let s := t.2
  if t.1 = false then s.onBus (·.inc (ethB p + 0x124))
  else
    let h := ethHead bs
    let r := s.route p h
    let s := { s with net := s.net.learn (p / 8) h.src p now }
    let s := r.1.foldl (fun s x => s.forward x bs (.forwarded stamp)) s
    if r.2 then s.toInternal p bs stamp else s

/-- R286 ETH_FRAME_RX. -/
def runEthFrameRx (port : Fin 16) (frame : List Byte) (fcsOk : Bool) (raw : Nat) (mirrorFits : Bool) (burst now : Nat) (s : State) :
    Host.Outcome State Fault Refusal :=
  .next (s.main fun s =>
    let s := s.at now
    if s.bus.portUp port.val = false then s
    else
      let s := s.onBus (·.inc (ethB port.val + 0x100))
      if fcsOk then s.received port.val frame raw mirrorFits burst now else s.onBus (·.inc (ethB port.val + 0x104)))

/-- R286 MAC_AGING: 300 s after a frame was last received from the address. -/
def execMacAging (d : Fin 2) (mac : BitVec 48) (now : Nat) (s : State) : Host.Outcome State Fault Refusal :=
  .next (s.main fun s =>
    let s := s.at now
    { s with net := { s.net with
        macs := s.net.macs.filter (fun e => !(decide (e.1 = d.val ∧ e.2.1 = mac ∧ e.2.2.2 + 300000000000 ≤ now))) } })

-- Gates (R289, R290, R302) -------------------------------------------------------------------------------------------------------------

/-- R302: the gate registers of a port, and its list `b` (A: 0, B: 1). -/
abbrev gateB (p : Nat) : Nat := swB (p / 8) + 0x100 + 0x20 * (p % 8)
abbrev gateListB (p l : Nat) : Nat := swB (p / 8) + 0x8000 + 0x1000 * (p % 8) + 0x800 * l

/-- One egress port. -/
def Net.port (n : Net) (p : Nat) : Port := n.ports.getD p {}
def State.setPort (s : State) (p : Nat) (x : Port) : State := { s with net := { s.net with ports := modAt (fun _ => x) s.net.ports p } }

/-- R289, R302: the administrative list with its CYCLE_TIME and BASE_TIME. -/
def Bus.adminList (b : Bus) (p : Nat) : GateRun :=
  let l := if b.flag (gateB p + 0x10) 29 then 0 else 1
  let n := Nat.min 256 (Nat.max 1 (b.field (gateB p + 0x0C) 8 0))
  { entries := tab n (fun i => (BitVec.ofNat 8 (b.field (gateListB p l + 8 * i + 4) 31 24), b.reg (gateListB p l + 8 * i)))
    cycle := Nat.min 1000000000 (Nat.max 1000 (b.reg (gateB p + 8))), base := b.reg64 (gateB p) }

/-- R290: the first instant BASE_TIME + N × CYCLE_TIME at or after `t`. -/
def GateRun.firstCycle (g : GateRun) (t : Nat) : Nat := g.base + ceilDiv (t - g.base) g.cycle * g.cycle

/-- R290: CONFIG_CHANGE. -/
def State.configChange (s : State) (p now : Nat) : State :=
  if s.bus.flag (gateB p + 0x10) 30 then s.onBus (·.raise (gateB p + 0x10) 31)
  else
    let g := s.bus.adminList p
    (s.setPort p { s.net.port p with pend := some (g.firstCycle (now + 2000), g) }).onBus (·.setFlag (gateB p + 0x10) 30 true)

/-- R290 CONFIG_CHANGE. The gate registers of I/O die 1 are unmapped in X1 variants (R18). -/
def execConfigChange (port : Fin 16) (now : Nat) (s : State) : Host.Outcome State Fault Refusal :=
  .next (s.main fun s => if port.val < 8 ∨ s.bus.variant.isX2 = true then (s.at now).configChange port.val now else s)

/-- R289: the entry of a list that holds `x` ns into the cycle, from entry `i` on: its index and its end. -/
def entryAt (cycle x : Nat) : List (Byte × Nat) → Nat → Nat → Nat × Nat
  | [], i, _ => (i - 1, cycle)
  | [_], i, _ => (i, cycle)
  | e :: es, i, from' =>
    let stop := Nat.min cycle (from' + e.2)
    if x < stop then (i, stop) else entryAt cycle x es (i + 1) stop

/-- R289: the entry whose gate states apply at `t`, and the ns until its end. -/
def GateRun.slot (g : GateRun) (t : Nat) : Nat × Nat :=
  let x := (((t : Int) - g.base) % (g.cycle : Int)).toNat
  let e := entryAt g.cycle x g.entries 0 0
  (e.1, e.2 - x)

/-- The list with the entry that applies at `t`. -/
def GateRun.moveTo (g : GateRun) (t : Nat) : GateRun := { g with idx := (g.slot t).1 }

/-- R289: queue `q`'s gate is open; with no list in operation every gate is. -/
def GateRun.isOpen (g : GateRun) (q : Nat) : Bool :=
  match g.entries[g.idx]? with
  | some e => e.1.getLsbD q
  | none => true

/-- R289 GATE_INTERVAL_END: the next entry's gate states apply. -/
def execGateIntervalEnd (port : Fin 16) (now : Nat) (s : State) : Host.Outcome State Fault Refusal :=
  .next (s.main fun s =>
    let s := s.at now
    let x := s.net.port port.val
    s.setPort port.val { x with gate := x.gate.moveTo now })

/-- R290 GATE_LIST_SWAP: the administrative list comes into operation; the running cycle is cut (R289). -/
def execGateListSwap (port : Fin 16) (now : Nat) (s : State) : Host.Outcome State Fault Refusal :=
  .next (s.main fun s =>
    let s := s.at now
    let x := s.net.port port.val
    match x.pend with
    | none => s
    | some (t, g) =>
      if now < t then s
      else
        let r := gateB port.val + 0x10
        (s.setPort port.val { x with gate := g.moveTo now, pend := none }).onBus
          (fun b => (b.setFlag r 30 false).setFlag r 29 (!(b.flag r 29))))

/-- The ns from `t` for which queue `q`'s gate stays open, none where it does not close. -/
def GateRun.openFor (g : GateRun) (q : Nat) : Nat → Nat → Option Nat
  | 0, _ => none
  | fuel + 1, t =>
    let y := g.moveTo t
    if y.isOpen q = false then some 0
    else if g.entries = [] then none
    else (GateRun.openFor g q fuel (t + (g.slot t).2)).map (· + (g.slot t).2)

/-- R289, R290: the ns from `t` for which queue `q` of a port stays open, a pending list included. -/
def Port.openFor (x : Port) (q t : Nat) : Option Nat :=
  let a := x.gate.openFor q (2 * x.gate.entries.length + 2) t
  match x.pend with
  | none => a
  | some (u, g) =>
    if decide (t ≤ u) && (match a with | some n => decide (u < t + n) | none => true) then (g.openFor q (2 * g.entries.length + 2) u).map (· + (u - t))
    else a

/-- R292: the longest window in which queue `q` of a list is open, none where it never closes or no list is in operation. -/
def GateRun.longest (g : GateRun) (q : Nat) : Option Nat :=
  if g.entries.length = 0 then none
  else (g.entries.zipIdx).foldl (fun (m : Option Nat) e =>
    let start := g.base + Nat.min g.cycle (lsum ((g.entries.take e.2).map (·.2)))
    match m, g.openFor q (2 * g.entries.length + 2) start with
    | some v, some n => some (Nat.max v n)
    | _, _ => none) (some 0)

-- Transmission (R288, R291, R292, R295, R296) --------------------------------------------------------------------------------------------------

/-- ps that one byte takes at a port's SPEED. -/
def bytePs (speed : Nat) : Nat := match speed with | 0 => 8000 | 1 => 3200 | 2 => 1600 | _ => 800

/-- The ps that a frame takes from its start to its last FCS bit: preamble, padding to the least length and FCS included. -/
def framePs (speed : Nat) (bs : List Byte) : Nat := (Nat.max 60 bs.length + 12) * bytePs speed

/-- The head of queue `q`. -/
def Port.head (x : Port) (q : Nat) : Option QFrame := (x.queues.find? (fun e => decide (e.1 = q))).map (·.2)

/-- The queue without its head. -/
def dropHead (q : Nat) : List (Nat × QFrame) → List (Nat × QFrame)
  | [] => []
  | e :: es => if e.1 = q then es else e :: dropHead q es

/-- R252: the batch of frame `f` disposed of on Ethernet. -/
def State.ethDone (s : State) (f : Nat) : State :=
  match s.select.batch f with
  | some x => { s with select := s.select.put { x with eth := true } }
  | none => s

/-- The head of queue `q` of port `p` leaves the queue; a batch whose last datagram this is has been disposed of. -/
def State.popHead (s : State) (p q : Nat) (f : QFrame) : State :=
  let x := s.net.port p
  let s := s.setPort p { x with queues := dropHead q x.queues }
  match f.origin with
  | .batch fr _ i n => if n ≤ i + 1 then s.ethDone fr else s
  | _ => s

/-- A datagram of a batch. -/
def QFrame.isBatch (f : QFrame) : Bool := match f.origin with | .batch _ _ _ _ => true | _ => false

/-- R291: the frame at the head of queue `q` may start at `now`: eligible, its gate open, and out before the gate closes;
a sweep holds batches back (R356). -/
def State.canStart (s : State) (p q now : Nat) (f : QFrame) : Bool :=
  let x := s.net.port p
  let g := x.gate.moveTo now
  let on := s.bus.flag (gateB p + 0x0C) 31
  !(s.inSweep && f.isBatch) && (match f.launch with | some l => decide (l ≤ now) | none => true)
    && (!on || (g.isOpen q && (match { x with gate := g }.openFor q now with
        | some n => decide (framePs (s.bus.field (ethB p + 4) 29 28) f.bytes ≤ 1000 * n)
        | none => true)))

/-- R292: why a frame at the head can never be sent: its counter. -/
def State.neverSent (s : State) (p q now : Nat) (f : QFrame) : Option Nat :=
  let x := s.net.port p
  let on := s.bus.flag (gateB p + 0x0C) 31
  let fits (g : GateRun) : Bool := match g.longest q with
    | some n => decide (framePs (s.bus.field (ethB p + 4) 29 28) f.bytes ≤ 1000 * n)
    | none => true
  if s.bus.portUp p = false then some 0x10C
  else if (match f.launch with | some l => decide (now + 1000000000 < l) | none => false) then some 0x120
  else if on && !(fits x.gate) && (match x.pend with | some (_, g) => !(fits g) | none => true) then some 0x11C
  else none

/-- R295: the guard's answer to a datagram of a batch. -/
def State.segmentOk (s : State) (p f seq i : Nat) (bs : List Byte) : Bool :=
  if i = 0 then s.mayLeave (p / 8) (sub bs 58 64) else decide ((s.net.port p).segOk = some (f, seq))

/-- R295: a refused batch is refused whole: its datagrams leave the queue. -/
def State.refuseBatch (s : State) (p f : Nat) : State :=
  let x := s.net.port p
  let keep (e : Nat × QFrame) : Bool := match e.2.origin with | .batch g _ _ _ => decide (g ≠ f) | _ => true
  ((s.setPort p { x with queues := x.queues.filter keep, segOk := none }).guard (p / 8) f false).ethDone f

/-- R279, R291: the corrected egress stamp, 2^-16 ns, of a frame that starts at `now`. -/
def Bus.egressStamp (b : Bus) (p now : Nat) : Int :=
  let lat := b.reg (ethB p + 0x18)
  let tick := -((-(((now * 65536 : Nat) : Int) - lat)) / 131072) * 131072
  tick + lat

/-- R279, R300: the egress stamp of a PTP event message of the management cluster queued, or lost. -/
def State.txStamp (s : State) (p : Nat) (stamp : Int) (seq : Nat) : State :=
  let x := s.net.port p
  if 16 ≤ x.stamps.length then s.onBus (·.inc (ethB p + 0x110))
  else s.setPort p { x with stamps := x.stamps ++ [((stamp / 65536).toNat, (stamp % 65536).toNat, seq)] }

/-- R287, R291, R295: the head of queue `q` of port `p` starts at `now`. -/
def State.startFrame (s : State) (p q now : Nat) (f : QFrame) : State :=
  let s := s.popHead p q f
  let x := s.net.port p
  let speed := s.bus.field (ethB p + 4) 29 28
  let s := (s.setPort p { x with busyUntil := 1000 * now + framePs speed f.bytes + 12 * bytePs speed }).onBus (·.inc (ethB p + 0x108))
  let stamp := s.bus.egressStamp p now
  match f.origin with
  | .forwarded t =>
    match ptpEvent f.bytes with
    | some i =>
      let r := transparent f.bytes i (stamp - t)
      s.onBus (fun b =>
        let b := b.inc (ethB p + 0x114)
        let b := if r.2 then b.inc (ethB p + 0x118) else b
        b.emit (.eth p r.1 now))
    | none => s.emit (.eth p f.bytes now)
  | .management =>
    let s := s.emit (.eth p f.bytes now)
    if (ethHead f.bytes).etype = 0x88F7 then
      match ptpEvent f.bytes with
      | some i => s.txStamp p stamp (bfld f.bytes (i + 30) 2)
      | none => s
    else s
  | .batch fr _ i _ =>
    let s := s.emit (.eth p f.bytes now)
    if i = 0 then (s.guard (p / 8) fr true).onBus (·.inc (smeB + 0x42C)) else s

/-- R291, R292, R295: the head of queue `q` of port `p` at `now`: dropped, refused, started, or left waiting. -/
def State.transmit (s : State) (p q now : Nat) : State :=
  match (s.net.port p).head q with
  | none => s
  | some f =>
    match s.neverSent p q now f with
    | some c => (s.popHead p q f).onBus (·.inc (ethB p + c))
    | none =>
      let higher := (List.range 8).any (fun k => decide (q < k) && (match (s.net.port p).head k with
        | some g => s.canStart p k now g
        | none => false))
      if decide (1000 * now < (s.net.port p).busyUntil) || higher || !(s.canStart p q now f) then s
      else
        match f.origin with
        | .batch fr seq i _ =>
          if s.segmentOk p fr seq i f.bytes then
            let x := s.net.port p
            (s.setPort p { x with segOk := some (fr, seq) }).startFrame p q now f
          else s.refuseBatch p fr
        | _ => s.startFrame p q now f

/-- R296: the firmware bucket of port `p` filled to `now`, in thousandths of a bit. -/
def State.fwTokens (s : State) (p now : Nat) : Nat :=
  let x := s.net.port p
  let a := egrdB (p / 8) + 0x100 + 8 * (p % 8)
  filled (s.bus.reg a) (s.bus.reg (a + 4)) x.fwTokens x.fwAt now

/-- R296: a frame of the management cluster queued on port `p`, or refused by the guard. -/
def State.fwFrame (s : State) (p now : Nat) (bs : List Byte) : State :=
  let forged := match udpHead bs with
    | some u => decide (u.dstIp = s.bus.reg (smeB + 0x210) ∧ u.dstPort = s.bus.field (smeB + 0x214) 15 0)
    | none => false
  let have' := s.fwTokens p now
  let cost := frameCost bs
  let x := s.net.port p
  let s := s.setPort p { x with fwTokens := have', fwAt := now }
  if forged || decide (have' < cost) then s.onBus (·.inc (egrdB (p / 8) + 0x208))
  else (s.setPort p { x with fwTokens := have' - cost, fwAt := now }).forward p bs .management

/-- R291 ETH_FRAME_TX: the head of queue `q` of a port starts when it may; `fw` is a frame that the management cluster adds first. -/
def execEthFrameTx (port : Fin 16) (q : Fin 8) (fw : Option (List Byte)) (now : Nat) (s : State) : Host.Outcome State Fault Refusal :=
  .next (s.main fun s =>
    let s := s.at now
    let s := match fw with
      | some bs => s.fwFrame port.val now bs
      | none => s
    s.transmit port.val q.val now)

/-- R300: the words of TX_STAMP. With the queue empty only VALID is stated. -/
def State.txStampWord (s : State) (p i : Nat) : Nat :=
  match (s.net.port p).stamps with
  | [] => if i = 3 then 0 else (Config.freeWord (s.bus.free + i)).toNat
  | e :: _ =>
    match i with
    | 0 => e.1 % 2 ^ 32
    | 1 => e.1 / 2 ^ 32 % 2 ^ 32
    | 2 => e.2.1 % 65536 + e.2.2 % 65536 * 65536
    | _ => 1

/-- R300: a read of word 3, which pops the queue. -/
def State.stampPop (s : State) (p : Nat) : State :=
  let x := s.net.port p
  s.setPort p { x with stamps := x.stamps.drop 1 }

/-- R300 TX_STAMP_POP. -/
def execTxStampPop (r : Requester) (port : Fin 16) (s : State) : Host.Outcome State Fault Refusal :=
  .next (s.main fun s =>
    if port.val < 8 ∨ s.bus.variant.isX2 = true then
      (s.emit (.readData r (ethB port.val + 0x3C) (BitVec.ofNat 32 (s.txStampWord port.val 3)))).stampPop port.val
    else s)

/-- R288: the frames queued for a port whose link goes down are dropped. -/
def State.linkDrop (s : State) (p : Nat) : State :=
  let x := s.net.port p
  x.queues.foldl (fun s e => (s.popHead p e.1 e.2).onBus (·.inc (ethB p + 0x10C))) s

/-- R288 ETH_LINK_CHANGE. -/
def execEthLinkChange (port : Fin 16) (up : Bool) (speed : Fin 4) (s : State) : Host.Outcome State Fault Refusal :=
  .next (s.main fun s =>
    if port.val < 8 ∨ s.bus.variant.isX2 = true then
      let s := s.onBus (fun b => (b.setFlag (ethB port.val + 4) 30 up).setField (ethB port.val + 4) 29 28 speed.val)
      if up then s else s.linkDrop port.val
    else s)

end Sys2Proof.Machine
end

