-- ==== Sys2Proof/Machine/Safe.lean ====
section
/-! DEFINITION. The SAFE entries of the object dictionary (R317, R332, R377, R393, R408): limits, defaults, the two CRCs of R393, the
protective field and its checks (R330, R331), MARGIN_FLOOR (R336), the topology rules (R408), and putting a set in force. -/

namespace Sys2Proof.Machine

/-- The form of a SAFE entry: an unsigned number of some bytes with its limits, a DOMAIN of fixed length, or one of at most `max` bytes
in whole elements of `step`. -/
inductive SafeKind where
  | num (bytes lo hi : Nat)
  | dom (len : Nat)
  | var (max step : Nat)
  deriving DecidableEq, Repr

/-- R332: the entries of polygon `p`. -/
def polyEntries (p : Nat) : List (Nat × SafeKind) :=
  let k := odKey (0x7100 + p)
  [(k 1, .num 1 0 1), (k 2, .num 1 3 32), (k 3, .num 4 0 0xFFFFFFFF), (k 4, .num 4 0 0xFFFFFFFF), (k 5, .var 256 8)]

/-- R332, R377: the entries of checker sensor `n`. -/
def sensorEntries (n : Nat) : List (Nat × SafeKind) :=
  let k := odKey (0x7300 + n)
  [(k 1, .num 1 0 1), (k 2, .dom 8), (k 3, .dom 128), (k 4, .var 16384 4), (k 5, .dom 8)]

/-- The SAFE entries from 0x5100 to 0x7020. -/
def safeLow : List (Nat × SafeKind) :=
  [(0x510001, .num 2 0 500), (0x510002, .num 2 0 20), (0x510003, .num 2 0 2000), (0x510004, .num 2 0 100), (0x510005, .num 2 1 0xFFFF),
   (0x700005, .num 1 0 0xFF), (0x701001, .num 1 1 16), (0x701002, .num 1 1 16), (0x701003, .num 2 2 500), (0x701004, .num 1 1 255),
   (0x702001, .num 2 0 5000), (0x702002, .num 1 1 255), (0x702003, .num 1 0 255), (0x702004, .num 2 100 2000)]

/-- The SAFE entries from 0x7030 to 0x7070. -/
def safeMid : List (Nat × SafeKind) :=
  [(0x703001, .num 2 50 300), (0x703002, .num 2 5 100), (0x704001, .num 2 0 0x7FF), (0x704002, .num 4 0 0xFFFFFFFF),
   (0x704003, .num 2 5 100), (0x705001, .num 4 2000 100000), (0x706001, .num 2 1 0xFFFF), (0x706002, .num 2 0 0xFFFF),
   (0x707001, .num 1 0 1)]

/-- The SAFE entries from 0x7400 on. -/
def safeHigh : List (Nat × SafeKind) :=
  [(0x740001, .dom 8192), (0x740002, .num 4 0 0xFFFFFFFF), (0x900001, .num 1 0 0xFF), (0x900002, .num 1 0 0xFF),
   (0x900003, .num 1 0 0xFF), (0x900004, .num 1 0 0xFF), (0x900005, .num 1 0 0xFF)]

/-- Every SAFE entry in ascending index and sub-index. -/
def safeTable : List (Nat × SafeKind) :=
  (safeLow ++ safeMid) ++ ((List.range 8).flatMap polyEntries ++ ((0x720000, .dom 32768) :: (List.range 16).flatMap sensorEntries)) ++ safeHigh

/-- The form of entry `k`, none where it is no SAFE entry. -/
def safeKind (k : Nat) : Option SafeKind := alook safeTable k

/-- The default bytes of a SAFE entry. -/
def safeDefaultBytes (k : Nat) (t : SafeKind) : List Byte :=
  match t with
  | .num n _ _ => leBytes n (safeDefault k)
  | .dom n => zeros n
  | .var _ _ => []

/-- The value of entry `k` in a set. -/
def safeValue (l : List (Nat × List Byte)) (k : Nat) : List Byte :=
  match alook l k with
  | some v => v
  | none => match safeKind k with
    | some t => safeDefaultBytes k t
    | none => []

/-- The number of entry `k` in a set. -/
def safeNum (l : List (Nat × List Byte)) (k : Nat) : Nat := leNat (safeValue l k)

/-- R360, R377: MONITOR_TABLE's limit: EXEC_MAX lies above EXEC_MIN in every entry that is enabled. -/
def monitorTableOk (v : List Byte) : Bool :=
  (List.range 512).all (fun n => !(bit (fld v (16 * n + 12) 4) 0) || decide (fld v (16 * n) 4 < fld v (16 * n + 4) 4))

/-- R317, R332, R377, R393, R395: the abort code of a written value, 0 where it may enter the pending set. The entries of R408 are
checked at CONFIRM. -/
def safeCheck (k : Nat) (v : List Byte) : Nat :=
  match safeKind k with
  | none => 0x06020000
  | some (.num n lo hi) =>
    let x := leNat v
    if v.length ≠ n then 0x06070010
    else if k = 0x700005 ∧ bit x 0 = false then 0x06090030
    else if hi < x then (if k / 256 = 0x5100 then 0x06090031 else 0x06090030)
    else if x < lo then 0x06090030
    else 0
  | some (.dom n) => if v.length ≠ n then 0x06070010 else if k = 0x740001 ∧ monitorTableOk v = false then 0x06090030 else 0
  | some (.var m st) => if m < v.length ∨ v.length % st ≠ 0 then 0x06070010 else 0

/-- R393: the CRC of a SAFE set. -/
def safeCrcOf (l : List (Nat × List Byte)) : Nat :=
  crc32c (safeTable.flatMap (fun e =>
    let v := safeValue l e.1
    leBytes 2 (e.1 / 256) ++ leBytes 1 (e.1 % 256) ++ leBytes 4 v.length ++ v))

/-- R393: the set as it would stand if confirmed. -/
def Mgmt.merged (m : Mgmt) : List (Nat × List Byte) := m.pending.foldl (fun l e => aset l e.1 e.2) m.safe

/-- R332, R393: the abort code of a value written to a SAFE entry: its own limits, and KM_M's, which begin at the KM_K of the set as it
would stand. -/
def State.safeWrite (s : State) (k : Nat) (v : List Byte) : Nat :=
  let c := safeCheck k v
  if c ≠ 0 then c else if k = 0x701002 ∧ leNat v < safeNum s.mgmt.merged 0x701001 then 0x06090030 else 0

-- The protective field (R330, R331) --------------------------------------------------------------------------------------------

/-- A point of the plane, in mm. -/
abbrev Pt2 := Int × Int

/-- An enabled polygon: its number, vertices and height band, in mm. -/
structure Poly where
  p : Nat
  verts : List Pt2
  zlo : Int
  zhi : Int
  deriving DecidableEq, Repr

/-- R332: the vertices a DOMAIN holds. -/
def polyVerts (bs : List Byte) (n : Nat) : List Pt2 :=
  (List.range (Nat.min n (bs.length / 8))).map (fun i => (sfld bs (8 * i) 4, sfld bs (8 * i + 4) 4))

/-- Polygon `p` of a set, where it is enabled. -/
def safePoly (l : List (Nat × List Byte)) (p : Nat) : Option Poly :=
  let k := odKey (0x7100 + p)
  if safeNum l (k 1) = 0 then none
  else some { p := p, verts := polyVerts (safeValue l (k 5)) (safeNum l (k 2)), zlo := sext 32 (safeNum l (k 3)),
              zhi := sext 32 (safeNum l (k 4)) }

/-- The enabled polygons of a set. -/
def safePolys (l : List (Nat × List Byte)) : List Poly := (List.range 8).filterMap (safePoly l)

/-- Twice the signed area of the triangle o a b. -/
def cross2 (o a b : Pt2) : Int := (a.1 - o.1) * (b.2 - o.2) - (a.2 - o.2) * (b.1 - o.1)

/-- `v` between `a` and `b`, ends included. -/
def between (a v b : Int) : Bool := decide (a ≤ v ∧ v ≤ b ∨ b ≤ v ∧ v ≤ a)

/-- `p` lies on the segment from `a` to `b`. -/
def onSeg (p a b : Pt2) : Bool := decide (cross2 a b p = 0) && between a.1 p.1 b.1 && between a.2 p.2 b.2

/-- Two segments share a point. -/
def segMeet (a b c d : Pt2) : Bool :=
  (decide (cross2 c d a * cross2 c d b < 0) && decide (cross2 a b c * cross2 a b d < 0))
    || onSeg a c d || onSeg b c d || onSeg c a b || onSeg d a b

/-- The edges of a polygon. -/
def edgesOf (vs : List Pt2) : List (Pt2 × Pt2) :=
  match vs with
  | [] => []
  | v :: t => vs.zip (t ++ [v])

/-- One edge's part in the parity test of a point. -/
def rayHit (p : Pt2) (e : Pt2 × Pt2) : Bool :=
  let a := e.1
  let b := e.2
  (decide (p.2 < a.2) != decide (p.2 < b.2)) &&
    (if a.2 < b.2 then decide (0 < cross2 a b p) else decide (cross2 a b p < 0))

/-- R330: the point lies inside the polygon or on its boundary. -/
def inPoly (vs : List Pt2) (p : Pt2) : Bool :=
  let es := edgesOf vs
  es.any (fun e => onSeg p e.1 e.2) || decide ((es.filter (rayHit p)).length % 2 = 1)

/-- R330: the centre of cell (i, j) in mm. -/
def cellCentre (i j : Nat) : Pt2 := (((i : Int) - 256) * 100 + 50, ((j : Int) - 256) * 100 + 50)

/-- R330: a polygon whose edges cross one another; edges that touch elsewhere than at a shared vertex, or fold back on one another,
count as crossing. -/
def polyCrosses (es : List (Pt2 × Pt2)) : Bool :=
  let n := es.length
  let e (i : Nat) : Pt2 × Pt2 := es.getD (i % n) ((0, 0), (0, 0))
  (List.range n).any (fun i =>
    let a := (e i).1
    let b := (e i).2
    let c := (e (i + 1)).2
    (decide (cross2 a b c = 0) && decide ((b.1 - a.1) * (c.1 - b.1) + (b.2 - a.2) * (c.2 - b.2) < 0))
      || (List.range n).any (fun k => decide (i + 2 ≤ k) && !(decide (i = 0) && decide (k + 1 = n))
          && segMeet a b (e k).1 (e k).2))

/-- R330: an enabled polygon that CONFIRM accepts. -/
def Poly.ok (q : Poly) : Bool :=
  let es := edgesOf q.verts
  decide (3 ≤ q.verts.length) && decide (q.verts.length ≤ 32) && decide (q.zlo ≤ q.zhi)
    && q.verts.all (fun v => decide (v.1.natAbs ≤ 25600 ∧ v.2.natAbs ≤ 25600))
    && es.all (fun e => decide (e.1 ≠ e.2))
    && decide (es.foldl (fun t e => t + (e.1.1 * e.2.2 - e.2.1 * e.1.2)) 0 ≠ 0) && !(polyCrosses es)

/-- R332: polygon `p` of a set passes R330, or is not enabled. -/
def polyPasses (l : List (Nat × List Byte)) (p : Nat) : Bool :=
  match safePoly l p with
  | none => true
  | some q => q.ok && decide (q.verts.length = safeNum l (odKey (0x7100 + p) 2))

/-- R331: the static mask's bit of cell (i, j). -/
def State.masked (s : State) (i j : Nat) : Bool :=
  match s.safeBytes 0x720000 with
  | none => false
  | some bs => bit (bs.getD (64 * j + i / 8) 0).toNat (i % 8)

/-- R325: the checker sensors with EN set. -/
def State.checkSensors (s : State) : List Nat := (List.range 16).filter (fun n => decide (s.safeNat (odKey (0x7300 + n) 1) ≠ 0))

/-- The enabled polygons in force. -/
def State.polys (s : State) : List Poly := safePolys s.mgmt.safe

-- MARGIN_FLOOR (R336) ----------------------------------------------------------------------------------------------------------

/-- Ceiling of a finite value; zero otherwise. -/
def fceil (v : FV) : Int :=
  match v.negate.toIntFloor with
  | some i => -i
  | none => 0

/-- R336: the distance in mm, as binary64, from the commissioned position of a sensor to a point given in mm. -/
def sensorDist (x : Xform) (v : Pt2) (z : Int) : Nat :=
  let d (a b : Int) : Nat := fofDyadic fmt64 (4 * a - b) 2
  v3norm fmt64 { x := d v.1 x.tx, y := d v.2 x.ty, z := d z x.tz }

/-- R336: D_MAX; zero with no sensor or no polygon. -/
def State.dMax (s : State) : Nat :=
  (s.checkSensors.flatMap (fun k => s.polys.flatMap (fun q => q.verts.flatMap (fun v =>
    [sensorDist (s.bus.xform (commAt k)) v q.zlo, sensorDist (s.bus.xform (commAt k)) v q.zhi])))).foldl
      (fun m d => if flt fmt64 m d then d else m) 0

/-- R336: MARGIN_FLOOR in mm, in binary64. -/
def State.marginFloor (s : State) : Nat :=
  let half := fdiv fmt64 (fmul fmt64 (fofInt fmt64 (s.safeNat 0x510003)) 0x400921FB54442D18) (fofInt fmt64 360000)
  let arm := fmul fmt64 s.dMax (fmul fmt64 (fofInt fmt64 2) (ftrig fmt64 true half))
  (fceil (fval fmt64 (fadd fmt64 (fofInt fmt64 (s.safeNat 0x510004)) arm))).toNat + 71

-- Confirmation (R393, R408) ------------------------------------------------------------------------------------------------------

/-- R408: the topology that a set names. -/
def topoOf (l : List (Nat × List Byte)) : Topo :=
  let kind := safeNum l 0x900003
  { size := safeNum l 0x900001, own := safeNum l 0x900002, kind := kind,
    xs := if kind = 0 then 1 else safeNum l 0x900004, ys := if kind = 0 then 1 else safeNum l 0x900005 }

/-- R408: the limits and combinations of the table. -/
def topoOk (v : Variant) (t : Topo) : Bool :=
  decide (1 ≤ t.size ∧ t.size ≤ 32 ∧ t.own < t.size) &&
    (if t.kind = 0 then decide (t.size = 1)
     else if t.kind = 1 then decide (t.xs = t.size ∧ 2 ≤ t.xs ∧ t.xs ≤ 8 ∧ t.ys = 1)
     else if t.kind = 2 then decide (2 ≤ t.xs ∧ t.xs ≤ 8 ∧ 2 ≤ t.ys ∧ t.ys ≤ 4 ∧ t.xs * t.ys = t.size) && v.isX2
     else false)

/-- R330, R393, R408: the abort code of the cross-entry conditions of a set, 0 where they hold. -/
def crossCheck (v : Variant) (l : List (Nat × List Byte)) : Nat :=
  if safeNum l 0x701002 < safeNum l 0x701001 then 0x08000020
  else if topoOk v (topoOf l) = false then 0x08000020
  else if (List.range 8).all (polyPasses l) = false then 0x06090030
  else 0

-- Kydor ports -------------------------------------------------------------------------------------------------------------------

/-- R431, R435: RETRAIN of Kydor port `k`: a HELD or DOWN link trains again, except in ARMED and RUN. -/
def State.retrain (s : State) (k : Nat) : State :=
  if s.sd.state = .armed ∨ s.sd.state = .run then s
  else s.onBus (fun b => if b.field (kydB k + 4) 1 0 = 0 ∨ b.field (kydB k + 4) 1 0 = 3 then b.setField (kydB k + 4) 1 0 1 else b)

/-- R435: KYD_CTRL written, EN having been `was`: a disabled port is DOWN; one enabled begins to train, except in ARMED and RUN. -/
def State.kydCtrl (s : State) (k : Nat) (was again : Bool) : State :=
  let st := kydB k + 4
  if s.bus.flag (kydB k) 0 = false then s.onBus (·.setField st 1 0 0)
  else if again || !was then s.retrain k
  else s

/-- R408, R435: Aedbaod enables the Kydor ports that the topology uses, and no other. -/
def State.kydPorts (s : State) : State :=
  (List.range 4).foldl (fun s k =>
    let use := bit s.bus.topo.ports k
    if (k < 2 ∨ s.bus.variant.isX2 = true) ∧ s.bus.flag (kydB k) 0 ≠ use then
      (s.onBus (·.setFlag (kydB k) 0 use)).kydCtrl k (!use) false
    else s) s

/-- R393: a set put in force. -/
def State.inForce (s : State) (l : List (Nat × List Byte)) : State :=
  { s with
    bus := { s.bus with topo := topoOf l }
    mgmt := { s.mgmt with safe := l, pending := [] }
    sd := { s.sd with safeCrc := some (BitVec.ofNat 32 (safeCrcOf l)) } }

/-- R395: a source whose commands and CONFIRMs are accepted. -/
def State.pathOk (s : State) (src : Source) : Bool :=
  let v := s.safeNat 0x700005
  match src with
  | .can _ => bit v 0
  | .qmp => bit v 1
  | .mailbox => bit v 2
  | .internal => false

/-- R394: the code of a source in the event log. -/
def Source.code : Source → Nat
  | .can c => c.val
  | .qmp => 2
  | .mailbox => 3
  | .internal => 4

/-- R393: the abort code of a CONFIRM, 0 where it is accepted. -/
def State.confirmCode (s : State) (src : Source) (crc : Nat) : Nat :=
  if s.sd.state ≠ .config then 0x08000022
  else if s.pathOk src = false then 0x08000020
  else if crc ≠ safeCrcOf s.mgmt.merged then 0x08000020
  else crossCheck s.bus.variant s.mgmt.merged

/-- R394: a request logged with its abort code, or with `ok` where it was served; a refusal is counted in SDO_ABORTS. -/
def State.logRequest (s : State) (index sub : Nat) (src : Source) (code ok : Nat) : State :=
  let s := s.logEvent index sub (Source.code src) (if code = 0 then ok else code)
  if code = 0 then s else { s with mgmt := { s.mgmt with sdoAborts := Nat.min (s.mgmt.sdoAborts + 1) 0xFFFFFFFF } }

/-- R393: CONFIRM, with its abort code. -/
def State.confirm (s : State) (src : Source) (crc : Nat) : Nat × State :=
  let code := s.confirmCode src crc
  let t := if code = 0 then
      let u := s.inForce s.mgmt.merged
      let u := { u with mgmt := { u.mgmt with safeConfirms := Nat.min (u.mgmt.safeConfirms + 1) 0xFFFFFFFF } }
      if u.plat.mainHeld then u else u.kydPorts
    else s
  (code, t.logRequest 0x7000 1 src code 0)

/-- R393 CONFIRM. -/
def execConfirm (src : Source) (crc : Word) (s : State) : Host.Outcome State Fault Refusal :=
  .next (s.onSd fun s => (s.confirm src crc.toNat).2)

/-- R393 PENDING_DISCARD: 60 s after the last write of the pending set. -/
def execPendingDiscard (now : Nat) (s : State) : Host.Outcome State Fault Refusal :=
  .next (s.onSd fun s =>
    if s.mgmt.pendingAt + 60000000000 ≤ now then { s.at now with mgmt := { s.mgmt with pending := [] } } else s)

end Sys2Proof.Machine
end

