-- ==== Sys2Proof/Machine/Checker.lean ====
section
/-! DEFINITION. The checker channel on the Junesha die: mirrored copies and the grid (R325 to R329), the coverage test (R333 to R335),
verdicts (R337 to R344, R358, R364), frozen streams (R366 to R368), timing monitors (R359 to R362), the schedule (R365), the safety
outputs and messages (R346 to R349), and the die's own detections (R324, R347, R369, R370). -/

namespace Sys2Proof.Machine

-- The schedule as the die keeps it (R326, R364) ----------------------------------------------------------------------------------

/-- R364: TREF0 and T_f in ns: latched on entry to ARMED, else as the frame sequencer holds them. -/
def State.sdSched (s : State) : Nat × Nat := s.sd.schedule.getD (s.bus.reg64 (fseqB + 0x10), s.bus.tf)

/-- R136: t_ref of frame `f` in the die's schedule. -/
def State.chkTref (s : State) (f : Nat) : Nat := s.sdSched.1 + f * s.sdSched.2

/-- R249: the deadline of frame `f`. -/
def State.chkDeadline (s : State) (f : Nat) : Nat := s.chkTref f + s.deadlineNs

/-- R6, R326: the frame whose window holds device time `t`. -/
def State.chkFrame (s : State) (t : Int) : Option Nat :=
  let f := (t - (s.sdSched.1 : Int)) / (s.sdSched.2 : Int) + 1
  if s.sdSched.2 = 0 ∨ f < 0 then none else some f.toNat

/-- R326: when the grid of frame `f` closes. -/
def State.closeAt (s : State) (f : Nat) : Nat := s.chkTref f + s.safeNat 0x702004 * 1000

/-- The record of frame `f` changed through `g`. -/
def State.modCheck (s : State) (f : Nat) (g : CheckFrame → CheckFrame) : State := { s with sd := s.sd.putFrame (g (s.sd.frame f)) }

/-- R328: frame `f` becomes unchecked, unless its verdict has been issued. -/
def State.spoil (s : State) (f : Nat) : State :=
  s.modCheck f (fun c => if c.issued then c else { c with unchecked := true })

-- Mirrored copies (R325 to R327) ---------------------------------------------------------------------------------------------------

/-- R325: a checker sensor's port, source address and template. -/
def State.chkPort (s : State) (k : Nat) : Nat := fld ((s.safeBytes (odKey (0x7300 + k) 2)).getD []) 0 1
def State.chkIp (s : State) (k : Nat) : Nat := fld ((s.safeBytes (odKey (0x7300 + k) 2)).getD []) 4 4
def State.chkTmpl (s : State) (k : Nat) : Tmpl := decodeTmpl (sub ((s.safeBytes (odKey (0x7300 + k) 3)).getD []) 0 128)

/-- R325: entry `i` of sensor `k`'s angle table; entries beyond its length are 0. -/
def State.chkAngle (s : State) (k i : Nat) : Nat := fld ((s.safeBytes (odKey (0x7300 + k) 4)).getD []) (4 * i) 4

/-- R366, R377: SEQ_FD of sensor `k`. -/
def State.seqFd (s : State) (k : Nat) : Option FieldD := decodeFd (fld ((s.safeBytes (odKey (0x7300 + k) 5)).getD []) 0 8)

/-- R366: the sequence value of a payload, none where the field is disabled or lies beyond it. -/
def seqValue (d : Option FieldD) (p : List Byte) : Option Nat :=
  match d with
  | none => none
  | some d => if d.pos + d.width ≤ 64 ∧ d.span.2 < p.length then some (d.bitsAt p 0) else none

/-- R366: the packet time of a payload where TIME_SRC is PACKET. -/
def Tmpl.packetTime (t : Tmpl) (p : List Byte) : Option Int :=
  if t.timeSrc ≠ 0 then none
  else match t.fd 0, timeTerm (t.fd 1) p 0 with
    | some d, some ns => some (d.raw p 0 * 1000000000 + ns)
    | _, _ => none

/-- R327: a coordinate in 0.25 mm, none where it is not finite. -/
def inQuarters (c : Nat) : Option Int := ((FV.ofInt 4).mul (fval fmt32 c)).toIntRne

/-- R327: a decoded point in machine coordinates, in 0.25 mm, by commissioned entry `x`; none where the checker ignores it. -/
def chkPoint (x : Xform) (p : DecPt) : Option (Int × Int × Int) :=
  let r := fval fmt32 p.range
  if r.isFinite = false ∨ r.isZero = true then none
  else
    let m := (x.pose.rigid fmt32 4).apply fmt32 { x := p.x, y := p.y, z := p.z }
    match inQuarters m.x, inQuarters m.y, inQuarters m.z with
    | some a, some b, some c => some (a, b, c)
    | _, _, _ => none

/-- R327: the cell of a point, where it lies in the grid. -/
def cellOf (x y : Int) : Option (Nat × Nat) :=
  let i := x / 400 + 256
  let j := y / 400 + 256
  if 0 ≤ i ∧ i < 512 ∧ 0 ≤ j ∧ j < 512 then some (i.toNat, j.toNat) else none

/-- The key under which cell (i, j) is kept. -/
abbrev cellKey (i j : Nat) : Nat := 512 * j + i

/-- R327: the polygons that count a point of height `z` in cell (i, j). -/
def hitPolys (ps : List Poly) (i j : Nat) (z : Int) : List Nat :=
  (ps.filter (fun q => decide (4 * q.zlo ≤ z ∧ z ≤ 4 * q.zhi) && inPoly q.verts (cellCentre i j))).map (·.p)

/-- A count that saturates at 255. -/
def sat255 (n : Nat) : Nat := Nat.min 255 n

/-- R327: a point counted into a cell. -/
def Cell.point (c : Cell) (hits : List Nat) (z : Int) : Cell :=
  let c := { c with any := sat255 (c.any + 1), counts := hits.foldl (fun l p => aset l p (sat255 ((alook l p).getD 0 + 1))) c.counts }
  if hits.isEmpty then c
  else if c.counted then { c with zmin := if z < c.zmin then z else c.zmin, zmax := if c.zmax < z then z else c.zmax }
  else { c with zmin := z, zmax := z, counted := true }

/-- R327: a point counted into a frame's grid. -/
def CheckFrame.point (c : CheckFrame) (ps : List Poly) (p : Int × Int × Int) : CheckFrame :=
  match cellOf p.1 p.2.1 with
  | none => c
  | some (i, j) =>
    let k := cellKey i j
    { c with cells := aset c.cells k (((alook c.cells k).getD {}).point (hitPolys ps i j p.2.2) p.2.2) }

/-- What a frame holds of sensor `k`. -/
def CheckFrame.sensor (c : CheckFrame) (k : Nat) : Option SensorSeen := c.seen.find? (fun x => x.sensor = k)

/-- R366: a decoded copy of sensor `k` noted. -/
def CheckFrame.see (c : CheckFrame) (k : Nat) (seq : Option Nat) (time : Option Int) (raw : List Byte) : CheckFrame :=
  let x := (c.sensor k).getD { sensor := k }
  let t := match x.time, time with
    | some a, some b => some (if a < b then b else a)
    | none, b => b
    | a, none => a
  let y : SensorSeen := { sensor := k, copies := x.copies + 1, seq := seq, time := t, raw := x.raw ++ raw }
  { c with seen := c.seen.filter (fun z => decide (z.sensor ≠ k)) ++ [y] }

/-- R325, R327, R328: one copy decoded for one checker sensor. -/
def State.chkCopy (s : State) (f k : Nat) (payload : List Byte) (stamp : Nat) : State :=
  let t := s.chkTmpl k
  match t.packet false (s.chkAngle k) payload stamp with
  | none => (s.sdCount 7 1).spoil f
  | some pts =>
    let x := s.bus.xform (commAt k)
    let ps := s.polys
    s.modCheck f (fun c => (pts.filterMap (chkPoint x)).foldl (fun c p => c.point ps p)
      (c.see k (seqValue (s.seqFd k) payload) (t.packetTime payload) ((pts.map (·.sig)).flatten)))

/-- R325: the checker sensors a copy belongs to. -/
def State.copySensors (s : State) (port srcIp udp : Nat) : List Nat :=
  s.checkSensors.filter (fun k => decide (s.chkPort k = port ∧ s.chkIp k = srcIp ∧ ((s.chkTmpl k).udpPort = udp ∨ (s.chkTmpl k).udpPort = 0)))

/-- R326 to R328: a copy of a checker sensor, with its ingress stamp. -/
def State.copyIn (s : State) (ks : List Nat) (payload : List Byte) (stamp now : Nat) : State :=
  match s.chkFrame stamp with
  | none => s
  | some f =>
    if (s.sd.frame f).closed || decide (s.closeAt f ≤ now) then (s.sdCount 6 1).spoil f
    else ks.foldl (fun s k => s.chkCopy f k payload stamp) s

/-- R294, R328: mirror drops reported for ports that carry a checker sensor make the frame of `now` unchecked. -/
def State.mirrorDrops (s : State) (drops : List (Nat × Nat)) (now : Nat) : State :=
  if drops.any (fun d => decide (0 < d.2) && s.checkSensors.any (fun k => decide (s.chkPort k = d.1))) then
    match s.chkFrame now with
    | some f => s.spoil f
    | none => s
  else s

/-- R327 MIRROR_COPY. -/
def execMirrorCopy (port : Fin 16) (frame : List Byte) (stamp : Nat) (drops : List (Nat × Nat)) (now : Nat) (s : State) :
    Host.Outcome State Fault Refusal :=
  .next (s.onSd fun s =>
    let s := (s.at now).mirrorDrops drops now
    match udpHead frame with
    | none => s
    | some u =>
      let ks := s.copySensors port.val u.srcIp u.dstPort
      if ks.isEmpty then s else s.copyIn ks (sub frame (u.at' + 8) (u.len - 8)) stamp now)

-- Grid and occupancy (R326, R329, R366, R368) ------------------------------------------------------------------------------------------

/-- R368: frame `f` − 1 where it precedes `c` in one stretch of RUN. -/
def Sd.prevOf (d : Sd) (c : CheckFrame) : Option CheckFrame :=
  match c.stretch with
  | none => none
  | some n => d.frames.find? (fun x => decide (x.frame + 1 = c.frame ∧ x.stretch = some n))

/-- R366: the tests of one sensor in frame `c` against the frame before. -/
def frozenSensor (silentMin : Nat) (c prev : CheckFrame) (k : Nat) : Bool :=
  let a := c.sensor k
  let z := prev.sensor k
  let copies := match a with | some x => x.copies | none => 0
  decide (copies < silentMin) ||
    (match a, z with
      | some x, some y =>
        (x.seq.isSome && decide (x.seq = y.seq)) || (match x.time, y.time with | some t, some u => decide (t ≤ u) | _, _ => false)
      | _, _ => false)
    || (match a with
      | some x => decide (crc32c x.raw = crc32c (match z with | some y => y.raw | none => []))
      | none => false)

/-- R366, R368: a frozen checker sensor makes the frame unchecked. -/
def State.frozenTest (s : State) (c : CheckFrame) : Bool :=
  match s.sd.prevOf c with
  | none => false
  | some p => s.checkSensors.any (fun k => frozenSensor (s.safeNat 0x706001) c p k)

/-- R326 GRID_CLOSE. -/
def execGridClose (f now : Nat) (s : State) : Host.Outcome State Fault Refusal :=
  .next (s.onSd fun s =>
    let c := s.sd.frame f
    if c.closed || decide (now < s.closeAt f) then s
    else
      let c := { c with closed := true, stretch := if s.sd.state = .run then some s.sd.stretch else none }
      let frozen := s.frozenTest c
      let s := { s.at now with sd := (s.at now).sd.putFrame { c with unchecked := c.unchecked || frozen } }
      if frozen then s.logEvent 0x7060 1 4 0 else s)

/-- R329: a cell is occupied for at least one polygon. -/
def cellOccupied (minPoints thresh net : Nat) (c : Cell) : Bool :=
  c.counts.any (fun x => decide (minPoints ≤ x.2) || (decide (thresh ≠ 0 ∧ thresh ≤ net ∧ 1 ≤ x.2)))

/-- R329 CHECKER_NETWORK_DONE: `net` lists the scores by cell (512j + i); an unlisted cell scores 0. -/
def execCheckerNetworkDone (f : Nat) (net : List (Nat × Byte)) (s : State) : Host.Outcome State Fault Refusal :=
  .next (s.onSd fun s =>
    let c := s.sd.frame f
    if c.closed && !c.ready then
      let score (k : Nat) : Nat := match alook net k with | some v => v.toNat | none => 0
      let occ := (c.cells.filter (fun x => cellOccupied (s.safeNat 0x702002) (s.safeNat 0x702003) (score x.1) x.2)).map (·.1)
      { s with sd := s.sd.putFrame { c with ready := true, occ := occ } }
    else s)

-- Boxes (R333 to R335) -------------------------------------------------------------------------------------------------------------------

/-- R246, R334: a record's CRC16 is correct. -/
def boxCrcOk (r : List Byte) : Bool := decide (crc16 (sub r 0 62) = fld r 62 2)

/-- 2π / 65,536 as binary64. -/
def yawUnit64 : Nat := 0x3F1921FB54442D18

/-- R333: a delivered record as a prism in machine coordinates; none where its heading has no horizontal part. -/
def boxOf (p : FPose) (r : List Byte) : Option CovBox :=
  let f := fmt64
  let g := p.rigid f 1
  let c := g.invApply f { x := fofInt f (sfld r 0 4), y := fofInt f (sfld r 4 4), z := fofInt f (sfld r 8 4) }
  let yaw := fmul f (fofInt f (sfld r 18 2)) yawUnit64
  let u := mapplyT f g.r { x := ftrig f false yaw, y := ftrig f true yaw, z := 0 }
  let n := fsqrt f (fadd f (fmul f u.x u.x) (fmul f u.y u.y))
  let q (v : Nat) : Option Int := (fval f (fmul f (fdiv f v n) (fofInt f (2 ^ 30)))).toIntRne
  let i (v : Nat) : Option Int := (fval f v).toIntRne
  match i c.x, i c.y, i c.z, q u.x, q u.y with
  | some cx, some cy, some cz, some co, some si =>
    some { cx := cx, cy := cy, cz := cz, l := fld r 12 2, w := fld r 14 2, h := fld r 16 2, c := co, s := si }
  | _, _, _, _, _ => none

/-- R334: the horizontal part of covers() for cell (i, j); `m` is MARGIN in mm. -/
def coversFlat (m : Nat) (b : CovBox) (i j : Nat) : Bool :=
  let dx := ((i : Int) - 256) * 400 + 200 - b.cx
  let dy := ((j : Int) - 256) * 400 + 200 - b.cy
  let x := dx * b.c + dy * b.s
  let y := -dx * b.s + dy * b.c
  decide (x.natAbs ≤ (2 * b.l + 4 * m) * 2 ^ 30 ∧ y.natAbs ≤ (2 * b.w + 4 * m) * 2 ^ 30)

/-- R334: covers(). -/
def covers (m : Nat) (b : CovBox) (i j : Nat) (zmin zmax : Int) : Bool :=
  coversFlat m b i j && decide (zmin ≤ b.cz + ((2 * b.h + 4 * m : Nat) : Int) ∧ b.cz - ((2 * b.h + 4 * m : Nat) : Int) ≤ zmax)

/-- R358: the canary: a box of 100 mm at the origin of the grid's middle, a cell just inside and one just outside its expansion. -/
def canaryOk (m : Nat) : Bool :=
  let b : CovBox := { cx := 0, cy := 0, cz := 0, l := 100, w := 100, h := 100, c := 2 ^ 30, s := 0 }
  covers m b (256 + m / 100) 256 0 0 && !covers m b (257 + m / 100) 256 0 0

/-- R334: a record reaches the comparator. -/
def State.takeBox (s : State) (f : Nat) (r : List Byte) : State :=
  let c := s.sd.frame f
  if c.issued || c.ended then s
  else if boxCrcOk r then { s with sd := s.sd.putFrame { c with boxes := c.boxes ++ [r] } }
  else s.sdCount 5 1

/-- R337, R364: the end mark; one at or after the deadline, or after the verdict, is counted in LATE_MARK. -/
def State.takeEnd (s : State) (f now : Nat) : State :=
  let c := s.sd.frame f
  if c.issued || decide (s.chkDeadline f ≤ now) then { s with sd := { s.sd with lateMarks := s.sd.lateMarks + 1 } }
  else { s with sd := s.sd.putFrame { c with ended := true } }

/-- R427: whether the device takes records from the record stream of the manager. -/
def State.isWorker (s : State) : Bool := decide (1 < s.bus.topo.size ∧ s.bus.topo.own ≠ 0)

/-- R334 BOX_RECORD. -/
def execBoxRecord (f : Nat) (bytes : List Byte) (s : State) : Host.Outcome State Fault Refusal :=
  .next (s.onSd fun s => if s.isWorker then s else s.takeBox f bytes)

/-- R337 END_MARK. -/
def execEndMark (f now : Nat) (s : State) : Host.Outcome State Fault Refusal :=
  .next (s.onSd fun s => if s.isWorker then s else (s.at now).takeEnd f now)

-- The coverage test and the verdict (R328, R334 to R344) -----------------------------------------------------------------------------------

/-- What the test of a frame found. -/
structure Tested where
  cells : Nat
  missed : Nat
  unsupported : Nat
  unchecked : Bool
  deriving DecidableEq, Repr

/-- R334: a field-occupied cell, `masked` by the static mask or not, has no box that covers it; `m` is MARGIN. -/
def missedBy (m : Nat) (masked : Bool) (boxes : List CovBox) (i j : Nat) (x : Cell) : Bool :=
  !masked && !(boxes.any (fun b => covers m b i j x.zmin x.zmax))

/-- R334: a field-occupied cell needs a box and has none. -/
def State.cellMissed (s : State) (boxes : List CovBox) (c : CheckFrame) (k : Nat) : Bool :=
  let i := k % 512
  let j := k / 512
  missedBy (s.safeNat 0x702001) (s.masked i j) boxes i j ((alook c.cells k).getD {})

/-- R335: a delivered box without checker support. -/
def boxUnsupported (m : Nat) (cells : List (Nat × Cell)) (b : CovBox) : Bool :=
  (cellOf b.cx b.cy).isSome && !(cells.any (fun x => decide (1 ≤ x.2.any) && coversFlat m b (x.1 % 512) (x.1 / 512)))

/-- R328, R334, R335: the test of a frame. A grid that is not ready leaves it unchecked. -/
def State.test (s : State) (c : CheckFrame) : Tested :=
  let boxes := match c.pref with
    | some (some p) => (c.boxes.filter (fun r => bit (fld r 25 1) 0)).filterMap (boxOf p)
    | _ => []
  let un := c.unchecked || !c.ready || (match c.pref with | some (some _) => false | _ => true)
  let missed := (c.occ.filter (s.cellMissed boxes c)).length
  { cells := if un then 0 else c.occ.length, missed := if un then 0 else missed,
    unsupported := Nat.min 65535 (boxes.filter (boxUnsupported (s.safeNat 0x702001) c.cells)).length, unchecked := un }

/-- R334, R338: the disagreement. -/
def Tested.disagree (t : Tested) : Bool := t.unchecked || decide (0 < t.missed)

/-- R367: camera frame `x` of this frame and `y` of the one before, both VALID, repeat. -/
def camRepeats (x y : Nat × Nat × Nat × Word × Bool) : Bool :=
  decide (x.1 = y.1) && x.2.2.2.2 && y.2.2.2.2 && decide (x.2.1 = y.2.1 ∨ x.2.2.1 ≤ y.2.2.1 ∨ x.2.2.2.1 = y.2.2.2.1)

/-- R367, R368: a camera of CAM_FROZEN_MASK is frozen. -/
def State.frozenCam (s : State) (c : CheckFrame) : Bool :=
  match s.sd.prevOf c with
  | none => false
  | some p => c.cams.any (fun x => bit (s.safeNat 0x706002) x.1 && p.cams.any (fun y => camRepeats x y))

/-- R353, R338: the history with one more verdict: the last KM_M. -/
def State.kmPush (s : State) (d : Bool) : List Bool := (d :: s.sd.history).take (s.safeNat 0x701002)

/-- A frame judged: the local verdict's fields, whether the history trips, and a fault of the die's own verdict path (its MECH_CAUSE). -/
structure Judged where
  t : Tested
  reason : Nat
  trips : Bool
  own : Option Nat
  deriving DecidableEq, Repr

/-- R248: the reasons that hold for a frame, the first of them first. -/
def judgeReasons (latched : Bool) (unfit : Option Nat) (late disagree frozenCam timing run : Bool) : List Nat :=
  (if latched then [0x0203] else []) ++ (match unfit with | some x => [0x0100 + x] | none => [])
    ++ (if late then [0x0202] else []) ++ (if disagree then [0x0201] else []) ++ (if frozenCam then [0x0204] else [])
    ++ (if timing then [0x0205] else []) ++ (if run then [] else [0x0206])

/-- R337, R338, R344, R358, R362, R367, R370: frame `c` judged. -/
def State.judge (s : State) (c : CheckFrame) (late : Bool) : Judged :=
  let t := s.test c
  let run := decide (s.sd.state = .run)
  let own := match s.sd.sramPending with
    | some b => some (0x05 * 2 ^ 24 + b.toNat)
    | none => if run && (Config.canaryFault c.frame || !canaryOk (s.safeNat 0x702001)) then some (0x02 * 2 ^ 24) else none
  let rs := judgeReasons s.sd.latched c.unfit late t.disagree (s.frozenCam c) (c.timing || s.sd.lateTiming) run
  { t := t, own := own, reason := if own.isSome && !s.sd.latched then 0x0207 else firstReason rs,
    trips := run && decide (s.safeNat 0x701001 ≤ ((s.kmPush t.disagree).filter id).length) }

/-- R340: the verdict completes INVALID_MAX invalid ones in RUN. -/
def State.invalidTrips (s : State) (valid : Bool) : Bool :=
  decide (s.sd.state = .run) && !valid && decide (s.safeNat 0x701004 ≤ s.sd.invalidRun + 1)

/-- The frame's test entered: the history (R338), the counters, a frozen camera logged (R368), and what the frame no longer needs
dropped. -/
def State.entered (s : State) (c : CheckFrame) (j : Judged) : State :=
  let near (g : Nat) : Bool := decide (((g : Int) - c.frame).natAbs < 8)
  let s := if s.frozenCam c then s.logEvent 0x7060 2 4 0 else s
  let c' := { c with issued := true, cells := [], occ := [], boxes := [] }
  let s := { s with sd := { (s.sd.putFrame c') with
    history := if s.sd.state = Dev.run then s.kmPush j.t.disagree else s.sd.history,
    lateTiming := false, sramPending := none, lastDisagree := j.t.disagree, lastUnchecked := j.t.unchecked } }
  let s := { s with sd := { s.sd with frames := s.sd.frames.filter (fun x => near x.frame) } }
  (s.sdCount 2 (b2n j.t.disagree)).sdCount 3 (b2n j.t.unchecked)

/-- R249, R346, R352: a verdict issued to the SME: the last verdict's fields, the counters, the run of invalid ones (R340), and SAFE_OK
energised at a VALID verdict in RUN. -/
def State.deliver (s : State) (v : Verdict) : State :=
  let run := decide (s.sd.state = .run)
  let on := run && v.valid && !s.sd.latched
  let s := { s with sd := { s.sd with
    verdicts := s.sd.verdicts + 1, lastFrame := v.frame, lastValid := v.valid, lastReason := v.reason, lastCells := v.cells,
    lastMissed := v.missed, nextVerdict := some (Nat.max (v.frame + 1) (s.sd.nextVerdict.getD 0)),
    invalidRun := if run then (if v.valid then 0 else s.sd.invalidRun + 1) else s.sd.invalidRun,
    safeA := s.sd.safeA || on, safeB := s.sd.safeB || on } }
  (((s.sdCount 0 1).sdCount 1 (b2n v.valid)).sdCount 4 v.unsupported.toNat).emit (.verdict v)

/-- R338, R340, R344, R358, R370: the causes that a verdict brings, the lower code first. -/
def State.verdictCauses (s : State) (f : Nat) (km inv : Bool) (own : Option Nat) : State :=
  let s := if km && s.canTrip false then s.enterSafe 1 0 f else s
  let s := if inv && s.canTrip false then s.enterSafe 2 0 f else s
  match own with
  | some m => if s.canTrip false then s.enterSafe 6 m f else s
  | none => s

/-- R249: the verdict record of frame `f` with the die's next TOKEN. -/
def State.verdictOf (s : State) (f reason cells missed uns : Nat) : Verdict :=
  { frame := f, valid := decide (reason = 0), reason := BitVec.ofNat 16 reason, cells := BitVec.ofNat 32 cells,
    missed := BitVec.ofNat 32 missed, unsupported := BitVec.ofNat 16 uns, token := Config.token s.sd.verdicts,
    deadline := s.chkDeadline f }

/-- R337 to R344: the verdict of frame `f` issued on a single device. -/
def State.issueSingle (s : State) (c : CheckFrame) (j : Judged) : State :=
  let inv := s.invalidTrips (decide (j.reason = 0))
  let reason := if inv && !j.trips && j.own.isNone then 0x0203 else j.reason
  let v := s.verdictOf c.frame reason j.t.cells j.t.missed j.t.unsupported
  ((s.entered c j).deliver v).verdictCauses c.frame j.trips inv j.own

/-- R427: the local verdict of frame `f` made and sent to the manager's Junesha die; R338 acts on it. -/
def State.issueLocal (s : State) (c : CheckFrame) (j : Judged) : State :=
  let v : LocalVerdict :=
    { valid := decide (j.reason = 0), reason := BitVec.ofNat 16 j.reason, cells := BitVec.ofNat 32 j.t.cells,
      missed := BitVec.ofNat 32 j.t.missed, unsupported := BitVec.ofNat 16 j.t.unsupported, latched := s.sd.latched }
  let s := s.entered c j
  let s := if s.bus.topo.own = 0 then { s with kydor := { s.kydor with own := aset s.kydor.own c.frame v } }
    else s.token (.kydLocal c.frame v)
  s.verdictCauses c.frame j.trips false j.own

/-- R337: the frame's verdict, by the size of the system. -/
def State.issue (s : State) (f : Nat) (late : Bool) : State :=
  let c := s.sd.frame f
  let j := s.judge c late
  if 1 < s.bus.topo.size then s.issueLocal c j else s.issueSingle c j

/-- R337 VERDICT_ISSUE: grid ready, end mark arrived, the deadline not yet passed. -/
def execVerdictIssue (f now : Nat) (s : State) : Host.Outcome State Fault Refusal :=
  .next (s.onSd fun s =>
    let c := s.sd.frame f
    if !s.inSweep && c.ready && c.ended && !c.issued && decide (now < s.chkDeadline f) then (s.at now).issue f false else s)

/-- R364: frame `f` still owes its verdict: its record stands without one, or it is a frame of the schedule since entry to RUN. -/
def State.owesVerdict (s : State) (f : Nat) : Bool :=
  match s.sd.frames.find? (fun c => c.frame = f) with
  | some c => !c.issued
  | none =>
    (match s.sd.runFirst with | some r => decide (r ≤ f) | none => false)
      && (match s.sd.nextVerdict with | some n => decide (n ≤ f + 8) | none => true)

/-- R250, R364 DEADLINE_EXPIRY. -/
def execDeadlineExpiry (f now : Nat) (s : State) : Host.Outcome State Fault Refusal :=
  .next (s.onSd fun s => if !s.inSweep && s.owesVerdict f && decide (s.chkDeadline f ≤ now) then (s.at now).issue f true else s)

-- Lockstep, outputs and messages (R324, R346 to R349) ------------------------------------------------------------------------------------------

/-- R324 LOCKSTEP_MISMATCH: outputs low, both controllers silent, no further verdict, the processors held until the next reset. -/
def execLockstepMismatch (s : State) : Host.Outcome State Fault Refusal :=
  .next { s with sd := { s.sd with halted := true, safeA := false, safeB := false, pulseA := none, pulseB := none } }

/-- R345, R347: whether cause `c` persists. -/
def State.setPersist (s : State) (c : Nat) (v : Bool) : State :=
  { s with sd := { s.sd with persists := if v then nins s.sd.persists c else ndel s.sd.persists c } }

/-- R347 READBACK_DISCREPANCY: a sensed level has differed for `duration` ns; 0 says that it agrees again. -/
def execReadbackDiscrepancy (outB : Bool) (duration : Nat) (s : State) : Host.Outcome State Fault Refusal :=
  .next (s.onSd fun s =>
    if duration = 0 then s.setPersist (40 + b2n outB) false
    else if readbackTrips duration = false then s
    else
      let s := (s.setPersist (40 + b2n outB) true).sdCount 9 1
      let s := { s with sd := { s.sd with safeA := false, safeB := false, pulseA := none, pulseB := none } }
      s.trip 5 false)

/-- R346: TP_WIDTH and TP_PERIOD in ns. -/
def State.tpWidth (s : State) : Nat := s.safeNat 0x703001 * 1000
def State.tpPeriod (s : State) : Nat := s.safeNat 0x703002 * 1000000

/-- A test pulse begun at `p` is over at `now`. -/
def State.pulseOver (s : State) (p : Option Nat) (now : Nat) : Bool :=
  match p with
  | none => true
  | some t => decide (t + s.tpWidth ≤ now)

/-- R346: output A's pulse is due: one in every TP_PERIOD. -/
def State.pulseADue (s : State) (now : Nat) : Bool :=
  s.sd.safeA && s.pulseOver s.sd.pulseB now && (match s.sd.pulseA with | none => true | some t => decide (t + s.tpPeriod ≤ now))

/-- R346: output B's pulse is due: half a period after A's. -/
def State.pulseBDue (s : State) (now : Nat) : Bool :=
  s.sd.safeB &&
    (match s.sd.pulseA with
      | none => false
      | some t => decide (t + s.tpPeriod / 2 ≤ now) && (match s.sd.pulseB with | none => true | some u => decide (u < t)))

/-- R346 TEST_PULSE. -/
def execTestPulse (outB : Bool) (now : Nat) (s : State) : Host.Outcome State Fault Refusal :=
  .next (s.onSd fun s =>
    if outB then (if s.pulseBDue now then { s.at now with sd := { s.sd with pulseB := some now } } else s)
    else if s.pulseADue now then { s.at now with sd := { s.sd with pulseA := some now } } else s)

/-- R343, R356: the states in which CYCLIC messages are sent. -/
def State.cyclicOn (s : State) : Bool :=
  !s.inSweep && (match s.sd.state with | .off => false | .boot => false | .selftest => false | _ => true)

/-- R349 CYCLIC: SAFE_MSG_PERIOD after the one before, within 1 ms. -/
def execCyclic (now : Nat) (s : State) : Host.Outcome State Fault Refusal :=
  .next (s.onSd fun s =>
    let due := match s.sd.lastCyclic with
      | none => true
      | some t => decide (t + s.safeNat 0x704003 * 1000000 ≤ now + 1000000)
    if s.cyclicOn && due then { (s.at now).sendSafety 1 with sd := { ((s.at now).sendSafety 1).sd with lastCyclic := some now } } else s)

-- Timing monitors (R359 to R362) ------------------------------------------------------------------------------------------------------------------

/-- R360: a monitor's entry. -/
structure MonEntry where
  min : Nat
  max : Nat
  latest : Option Int
  en : Bool
  deriving DecidableEq, Repr

/-- R361: SHORT, at an END `d` ns after START. -/
def MonEntry.short (e : MonEntry) (d : Nat) (zero : Bool) : Bool := decide (d < e.min) && !zero

/-- R361: LONG, with no END in the first `d` ns after START. -/
def MonEntry.long (e : MonEntry) (d : Nat) : Bool := decide (e.max ≤ d)

/-- R361: LATE_START at `now`, `tref` being the frame's t_ref. -/
def MonEntry.lateStart (e : MonEntry) (tref now : Nat) (start : Option Nat) : Bool :=
  match e.latest with
  | none => false
  | some d =>
    let limit : Int := tref + d
    !(match start with | some t => decide ((t : Int) < limit) | none => false) && decide (limit ≤ now)

/-- R360: entry `n` of the monitor table in force. -/
def State.monitor (s : State) (n : Nat) : MonEntry :=
  match s.safeBytes 0x740001 with
  | none => { min := 0, max := 0, latest := none, en := false }
  | some bs =>
    { min := fld bs (16 * n) 4, max := fld bs (16 * n + 4) 4,
      latest := if fld bs (16 * n + 8) 4 = 0x80000000 then none else some (sfld bs (16 * n + 8) 4), en := bit (fld bs (16 * n + 12) 4) 0 }

/-- R359: the frame whose low 16 bits a token carries: the nearest to the present one. -/
def State.frame16 (s : State) (f16 now : Nat) : Nat :=
  let cur := (s.chkFrame now).getD 0
  ((cur : Int) + sext 16 ((f16 + 65536 - cur % 65536) % 65536)).toNat

/-- The monitor's record for a frame. -/
def Sd.mon (d : Sd) (n f : Nat) : MonRec := (d.mons.find? (fun m => decide (m.mon = n ∧ m.frame = f))).getD { mon := n, frame := f }

/-- A monitor's record put in place; records of frames 8 or more away are dropped. -/
def Sd.putMon (d : Sd) (m : MonRec) : Sd :=
  { d with mons := d.mons.filter (fun x => decide (¬(x.mon = m.mon ∧ x.frame = m.frame) ∧ ((x.frame : Int) - m.frame).natAbs < 8)) ++ [m] }

/-- R362: a violation for frame `f`, logged with it. -/
def State.violation (s : State) (f mon : Nat) : State :=
  let s := if (s.sd.frame f).issued then { s with sd := { s.sd with lateTiming := true } }
    else s.modCheck f (fun c => { c with timing := true })
  s.logEvent 0x7400 (mon % 256) 4 f

/-- R361: whether monitor `n` watches frame `f`. -/
def State.watches (s : State) (n f : Nat) : Bool := (s.monitor n).en && !(s.sd.disarmed.contains f)

/-- R359, R361: START of a monitored task. -/
def State.monStart (s : State) (n f now : Nat) : State :=
  let m := s.sd.mon n f
  match m.start with
  | some _ => s.violation f n
  | none => { s with sd := s.sd.putMon { m with start := some now } }

/-- R361: LONG found for a monitor that started at `t`. -/
def State.monLong (s : State) (n f : Nat) : State :=
  { s.violation f n with sd := (s.violation f n).sd.putMon { s.sd.mon n f with longSeen := true } }

/-- R361: END of a monitored task: SEQUENCE without START, SHORT, or LONG where it had not been found. -/
def State.monEnd (s : State) (n f : Nat) (zero : Bool) (now : Nat) : State :=
  let m := s.sd.mon n f
  let e := s.monitor n
  match m.start with
  | none => s.violation f n
  | some t =>
    let s := if e.short (now - t) zero then s.violation f n else s
    let s := if e.long (now - t) && !m.longSeen then s.monLong n f else s
    { s with sd := s.sd.putMon { s.sd.mon n f with ended := true } }

/-- R359 START token. -/
def execTokenStart (mon : Fin 512) (f : BitVec 16) (now : Nat) (s : State) : Host.Outcome State Fault Refusal :=
  .next (s.onSd fun s =>
    let g := s.frame16 f.toNat now
    if s.watches mon.val g then (s.at now).monStart mon.val g now else s)

/-- R359 END token. -/
def execTokenEnd (mon : Fin 512) (f : BitVec 16) (zero : Bool) (now : Nat) (s : State) : Host.Outcome State Fault Refusal :=
  .next (s.onSd fun s =>
    let g := s.frame16 f.toNat now
    if s.watches mon.val g then (s.at now).monEnd mon.val g zero now else s)

/-- R361: RESTART sets the start anew, once per task and frame. -/
def State.monRestart (s : State) (n f now : Nat) : State :=
  let m := s.sd.mon n f
  if m.restarted then s.violation f n
  else { s with sd := s.sd.putMon { m with start := some now, restarted := true, ended := false, longSeen := false } }

/-- R359 RESTART token. -/
def execTokenRestart (mon : Fin 512) (f : BitVec 16) (now : Nat) (s : State) : Host.Outcome State Fault Refusal :=
  .next (s.onSd fun s =>
    let g := s.frame16 f.toNat now
    if s.watches mon.val g then (s.at now).monRestart mon.val g now else s)

/-- R361 ABANDON token: every monitor of the frame is disarmed. -/
def execTokenAbandon (f : BitVec 16) (s : State) : Host.Outcome State Fault Refusal :=
  .next (s.onSd fun s =>
    let g := s.frame16 f.toNat s.now
    { s with sd := { s.sd with disarmed := nins (s.sd.disarmed.filter (fun x => decide (((x : Int) - g).natAbs < 16))) g } })

/-- R361 LONG: no END in [s, s + EXEC_MAX). -/
def execExecMaxExpiry (mon : Fin 512) (f : BitVec 16) (now : Nat) (s : State) : Host.Outcome State Fault Refusal :=
  .next (s.onSd fun s =>
    let g := s.frame16 f.toNat now
    let m := s.sd.mon mon.val g
    match m.start with
    | none => s
    | some t =>
      if s.watches mon.val g && !m.ended && !m.longSeen && decide (t ≤ now) && (s.monitor mon.val).long (now - t) then (s.at now).monLong mon.val g
      else s)

/-- R361 LATE_START: no START before t_ref + START_LATEST. -/
def execStartLatestExpiry (mon : Fin 512) (f : BitVec 16) (now : Nat) (s : State) : Host.Outcome State Fault Refusal :=
  .next (s.onSd fun s =>
    let g := s.frame16 f.toNat now
    let m := s.sd.mon mon.val g
    if s.watches mon.val g && !m.lateSeen && (s.monitor mon.val).lateStart (s.chkTref g) now m.start then
      let s := (s.at now).violation g mon.val
      { s with sd := s.sd.putMon { m with lateSeen := true } }
    else s)

/-- R365 FRAME_TOKEN: a frame opens with a t_ref; one that disagrees with the schedule enters the safe state. -/
def execFrameToken (f tref : Nat) (s : State) : Host.Outcome State Fault Refusal :=
  .next (s.onSd fun s =>
    let c := s.sd.frame f
    let c := if c.issued ∧ s.sd.state ≠ .run then { frame := f } else c
    let d := s.sd.putFrame c
    let s := { s with sd := { d with frames := d.frames.filter (fun x => decide (((x.frame : Int) - f).natAbs < 16)) } }
    match s.sd.schedule with
    | none => s
    | some _ => if tref = s.chkTref f then s else s.trip 6 false (0x04 * 2 ^ 24 + f % 2 ^ 24))

-- The die's own detections (R369, R370) ----------------------------------------------------------------------------------------------------------------

/-- R369 BIST_TOKEN: a pass is noted for its station; a fail enters the safe state at the next frame boundary. -/
def execBistToken (n : Fin 32) (k : BistTok) (now : Nat) (s : State) : Host.Outcome State Fault Refusal :=
  .next (s.onSd fun s =>
    match k with
    | .pass => { s.at now with sd := { s.sd with stationPass := modAt (fun _ => now) s.sd.stationPass n.val } }
    | .fail => (s.at now).causeAtBoundary 3
    | .start => s.at now
    | .complete => s.at now)

/-- R369: the longest time between passing tests of one station. -/
def State.passLimit (s : State) : Nat := 32 * (s.bus.dtiNs + s.bus.tf)

/-- R369 STATION_TEST_OVERDUE. -/
def execStationTestOverdue (n : Fin 32) (now : Nat) (s : State) : Host.Outcome State Fault Refusal :=
  .next (s.onSd fun s =>
    if s.sd.stationPass.getD n.val 0 + s.passLimit < now then (s.at now).causeAtBoundary 3 else s)

/-- R370 SAFE_PARAM_CHECK: the CRC of the die's copy of the SAFE set is recomputed. -/
def execSafeParamCheck (s : State) : Host.Outcome State Fault Refusal :=
  .next (s.onSd fun s =>
    match s.sd.safeCrc with
    | none => s
    | some c => if c.toNat = safeCrcOf s.mgmt.safe then s else s.trip 6 false (0x06 * 2 ^ 24))

/-- R370 SD_SRAM_ERROR: an uncorrectable error in `bank`, found by polling, or while a verdict is being issued. -/
def execSdSramError (bank : BitVec 24) (poll : Bool) (s : State) : Host.Outcome State Fault Refusal :=
  .next (s.onSd fun s =>
    if poll then s.trip 6 false (0x05 * 2 ^ 24 + bank.toNat) else { s with sd := { s.sd with sramPending := some bank } })

end Sys2Proof.Machine
end

