-- ==== Sys2Proof/Machine/Dma.lean ====
section
/-! DEFINITION. The DMA engines (R260 to R275): the reshuffles of a row, register-mode channels (start, line writes, pacing, laps,
fences, pause, abort, errors) and the six DMA steps. -/

namespace Sys2Proof.Machine

-- Rows (R261, R262) --------------------------------------------------------------------------------------------------------

/-- Bytes on their way, each with the poison of the granule it came from (R272). -/
abbrev PBytes := List (Byte × Bool)

/-- R261, R262: the shape of a transfer: reshuffle, element size E, planes P, rows, bytes of a row, plane stride. -/
structure DmaJob where
  shuf : Nat
  e : Nat
  p : Nat
  rows : Nat
  rowBytes : Nat
  ps : Nat
  deriving DecidableEq, Repr

/-- R270: the source bytes of one block: the boundary at which a channel stops. -/
def DmaJob.block (j : DmaJob) : Nat :=
  match j.shuf with
  | 0 => 64
  | 3 => 512 * j.e
  | _ => 64 * j.p * j.e

/-- The planes of a planar side. -/
def DmaJob.planes (j : DmaJob) : Nat := if j.shuf = 3 then 8 * j.e else if j.shuf = 0 then 1 else j.p

/-- The bytes of one plane that `n` row bytes fill. -/
def DmaJob.planeBytes (j : DmaJob) (n : Nat) : Nat :=
  match j.shuf with
  | 0 => n
  | 3 => ceilDiv (n / j.e) 8
  | _ => ceilDiv n (j.p * j.e) * j.e

/-- Where `n` row bytes from byte `k` of a row lie on the contiguous side, and on the planar side: offset and length. -/
def DmaJob.flat (_ : DmaJob) (k n : Nat) : List (Nat × Nat) := [(k, n)]
def DmaJob.planar (j : DmaJob) (k n : Nat) : List (Nat × Nat) :=
  tab j.planes (fun b => (b * j.ps + j.planeBytes k, j.planeBytes n))

/-- What a row's bytes from `k` read, and what they write. -/
def DmaJob.reads (j : DmaJob) (k n : Nat) : List (Nat × Nat) := if j.shuf = 2 then j.planar k n else j.flat k n
def DmaJob.writes (j : DmaJob) (k n : Nat) : List (Nat × Nat) := if j.shuf = 1 ∨ j.shuf = 3 then j.planar k n else j.flat k n

/-- R268: the destination bytes of one row. -/
def DmaJob.dstBytes (j : DmaJob) : Nat := lsum ((j.writes 0 j.rowBytes).map (·.2))

/-- Element `i` of `e` bytes. -/
def elem (l : PBytes) (e i : Nat) : PBytes := (l.drop (e * i)).take e

/-- R262 BITPLANE: byte `i` of plane `b`: bit `b` of elements 8i to 8i + 7, the unused bits 0. -/
def planeByte (l : PBytes) (e b i : Nat) : Byte × Bool :=
  (List.range 8).foldl (fun (q : Byte × Bool) j =>
    match l[(8 * i + j) * e + b / 8]? with
    | none => q
    | some x => (q.1 ||| (if x.1.getLsbD (b % 8) then BitVec.ofNat 8 (2 ^ j) else 0), q.2 || x.2)) (0, false)

/-- R262: the data that each write of `n` row bytes receives, from the data read. -/
def DmaJob.place (j : DmaJob) (n : Nat) (l : PBytes) : List PBytes :=
  match j.shuf with
  | 1 => tab j.p (fun b => (tab (ceilDiv n (j.p * j.e)) (fun g => elem l j.e (g * j.p + b))).flatten)
  | 2 => [((tab (ceilDiv n (j.p * j.e)) (fun g =>
            (tab j.p (fun b => elem l j.e (b * ceilDiv n (j.p * j.e) + g))).flatten)).flatten).take n]
  | 3 => tab (8 * j.e) (fun b => tab (j.planeBytes n) (planeByte l j.e b))
  | _ => [l]

-- Access to the two sides (R263, R272) ------------------------------------------------------------------------------------------

/-- What a read gave: the bus after it, the bytes, and the address that was refused. -/
structure DmaGot where
  bus : Bus
  data : PBytes := []
  err : Option Nat := none
  reads : List (Nat × Nat) := []
  nLine : Nat := 0
  nBad : Nat := 0

/-- The bytes with each byte's granule poison. -/
def Bus.withPoison (b : Bus) (a : Nat) (g : Got) : PBytes :=
  if g.poisoned then g.bytes.zipIdx.map (fun x => (x.1, b.poisoned (b.localAddr a + x.2) 1)) else g.bytes.map (fun x => (x, false))

/-- R21, R263, R272: `n` bytes read from address space `sp`, line by line. A completion of the host poisons all it brings. -/
def DmaGot.read (q : DmaGot) (sp a n : Nat) : DmaGot :=
  (lines (n / 64 + 2) a n).foldl (fun (q : DmaGot) x =>
    if q.err.isSome then q
    else if sp = 0 then
      let g := q.bus.fetch x.1 x.2
      let b := q.bus.afterFetch x.1 x.2
      if g.busErr then { q with bus := b, err := some x.1 }
      else { q with bus := b, data := q.data ++ q.bus.withPoison x.1 g, reads := q.reads ++ [x], nLine := q.nLine + 1,
                    nBad := q.nBad + b2n g.poisoned }
    else
      let bad := Config.tlpPoison q.bus.free || q.bus.hostPoison (sp - 1) x.1 x.2
      { q with bus := { q.bus with free := q.bus.free + 1 }, data := q.data ++ ((q.bus.hostMem (sp - 1)).rdN x.1 x.2).map (fun v => (v, bad)),
               nLine := q.nLine + 1, nBad := q.nBad + b2n bad }) q

/-- R272: each destination granule that receives a poisoned byte is poisoned. -/
def Bus.markBytes (b : Bus) (a : Nat) (l : PBytes) : Bus :=
  l.zipIdx.foldl (fun b x => if x.1.2 then b.markPoison (a + x.2) 1 else b) b

/-- R106: the requester that engine `q` is. -/
abbrev dmaReq (q : Nat) : Requester := .unit (59 + q)

/-- R23, R263, R272: one line written by channel `c` to address space `sp`; false where it was refused. -/
def Bus.dmaPut (b : Bus) (c sp a : Nat) (l : PBytes) : Bus × Bool :=
  let bs := l.map (·.1)
  if sp = 0 then
    let w := b.writeTx (dmaReq (c / 16)) a bs .direct true (b.isRemote a && l.any (·.2)) (some c)
    if w.2 = .done then (w.1.markBytes a l, true) else (w.1, false)
  else (b.putHost (sp - 1) a bs (l.any (·.2)), true)

-- Register-mode channels ------------------------------------------------------------------------------------------------------

/-- R274, R275: the registers of channel `c` and of its engine. -/
abbrev engB (c : Nat) : Nat := dmaB (c / 16)
abbrev chB (c : Nat) : Nat := engB c + 0x1000 + 0x100 * (c % 16)

/-- R275: the channel's STATE. -/
def Bus.chState (b : Bus) (c : Nat) : Nat := b.field (chB c + 0x40) 2 0
def Bus.setChState (b : Bus) (c v : Nat) : Bus := b.setField (chB c + 0x40) 2 0 v

/-- R260. -/
def Bus.booked (b : Bus) (c : Nat) : Bool := b.flag (engB c + 8) (c % 16)

/-- CFG_ERR set and counted. -/
def Bus.cfgErr (b : Bus) (c : Nat) : Bus := b.note (engB c + 0x11C) (chB c + 0x40) 29

/-- R260: a register write of a booked channel is ignored and sets CFG_ERR. -/
def Bus.unbooked (b : Bus) (c : Nat) (f : Bus → Bus) : Bus := if b.booked c then b.cfgErr c else f b

/-- The channel's own record. -/
def State.ch (s : State) (c : Nat) : DmaCh := s.dma.getD c {}
def State.setCh (s : State) (c : Nat) (x : DmaCh) : State := { s with dma := modAt (fun _ => x) s.dma c }

/-- R275: the transfer that the channel's registers describe. -/
def Bus.chJob (b : Bus) (c : Nat) : DmaJob :=
  let cfg := b.reg (chB c + 0x2C)
  { shuf := bits cfg 25 23, e := 2 ^ bits cfg 22 21, p := bits cfg 20 17 + 1, rows := b.field (chB c + 0x1C) 16 0,
    rowBytes := b.field (chB c + 0x18) 24 0, ps := b.reg (chB c + 0x28) }

def Bus.chIdx (b : Bus) (c : Nat) : Nat := b.field (chB c + 0x2C) 27 26
def Bus.chAck (b : Bus) (c : Nat) : Bool := b.flag (chB c + 0x2C) 15
def Bus.chCirc (b : Bus) (c : Nat) : Bool := b.flag (chB c + 0x2C) 16
def Bus.srcSpace (b : Bus) (c : Nat) : Nat := b.field (chB c + 0x2C) 31 30
def Bus.dstSpace (b : Bus) (c : Nat) : Nat := b.field (chB c + 0x2C) 29 28

/-- The endpoint of a host space can complete a transaction (R450). -/
def State.hostUp (s : State) (sp : Nat) : Bool := sp = 0 || !(s.plat.pcieDown.contains (sp - 1) || s.plat.pcieReset.contains (sp - 1))

/-- R264: START refuses the transfer. -/
def Bus.startBad (b : Bus) (c : Nat) : Bool :=
  let j := b.chJob c
  let sp (v : Nat) : Bool := decide (v = 3) || (decide (v = 2) && !b.variant.isX2)
  sp (b.srcSpace c) || sp (b.dstSpace c) || decide (b.chIdx c = 3 ∨ 3 < j.shuf ∨ j.e = 8)
    || ((decide (j.shuf = 1) || decide (j.shuf = 2)) && decide (j.p = 1 ∨ j.rowBytes % (j.p * j.e) ≠ 0))
    || (decide (j.shuf = 3) && decide (j.rowBytes % j.e ≠ 0))
    || decide (b.reg64 (chB c + 0x10) % 4 ≠ 0)
    || (b.flag (chB c + 0x34) 31 && decide (b.field (chB c + 0x30) 31 16 ≤ b.field (chB c + 0x30) 15 0))
    || (b.chCirc c && decide (j.rows = 0))

/-- R268: the interrupt of a channel. -/
def Bus.chIrq (b : Bus) (c en : Nat) : Bus :=
  let n := b.reg (chB c + 0x38)
  if bit n en = false then b
  else if bit n 29 = false then b.emit (.irqMgt (chB c + 0x40))
  else if bit n 28 = false then b.emit (.msix 0 (bits n 23 16))
  else if b.variant.isX2 then b.emit (.msix 1 (bits n 23 16)) else b

/-- R261: the index entry at `a`, from its 64-byte line: none where the line is unreadable or poisoned. -/
def Bus.entryAt (b : Bus) (a : Nat) : Option Nat :=
  let g := b.fetch (a / 64 * 64) 64
  if g.busErr || g.poisoned then none else some (leNat (sub g.bytes (a % 64) 4))

/-- The address of index entry `r`. -/
def Bus.entryAddr (b : Bus) (c r : Nat) : Nat := b.reg64 (chB c + 0x10) % 2 ^ 40 + 4 * r

/-- R261: index entry `r` of a channel. -/
def Bus.chEntry (b : Bus) (c r : Nat) : Option Nat := b.entryAt (b.entryAddr c r)

/-- A row's place on a side: `none` where no index entry names it. -/
def Bus.chRow (b : Bus) (c side r : Nat) : Option Nat := if b.chIdx c = side then b.chEntry c r else some r

/-- R261: base + row × signed stride, in 64 bits. -/
def strided (base row stride : Nat) : Nat := toU 64 ((base : Int) + (row : Int) * sext 32 stride)

/-- R261: the row starts on the two sides. -/
def Bus.srcRow (b : Bus) (c v : Nat) : Nat := strided (b.reg64 (chB c)) v (b.reg (chB c + 0x20))
def Bus.dstRow (b : Bus) (c v : Nat) : Nat := strided (b.reg64 (chB c + 8)) v (b.reg (chB c + 0x24))

/-- R270, R275: CUR_ROW, CUR_BYTE, CUR_SRC and CUR_DST at row `r`, source byte `k`. An address that no index entry gives is free. -/
def Bus.setCur (b : Bus) (c r k : Nat) : Bus :=
  let j := b.chJob c
  let v (side : Nat) : Option Nat :=
    match (if r < j.rows ∨ b.chIdx c ≠ side then b.chRow c side r else none) with
    | some 0xFFFFFFFF => if b.chIdx c = side then none else some 0xFFFFFFFF
    | x => x
  let open' (i : Nat) : Nat := (Config.freeWord (b.free + i)).toNat + 2 ^ 32 * (Config.freeWord (b.free + i + 1)).toNat
  let off (l : List (Nat × Nat)) : Nat := (l.headD (0, 0)).1
  let src := match v 1 with
    | some x => (b.srcRow c x + off (j.reads k 0)) % 2 ^ 64
    | none => open' 0
  let dst := match v 2 with
    | some x => (b.dstRow c x + off (j.writes k 0)) % 2 ^ 64
    | none => open' 2
  let b := if (v 1).isSome && (v 2).isSome then b else { b with free := b.free + 4 }
  (((b.setReg (chB c + 0x58) r).setReg (chB c + 0x5C) k).setReg64 (chB c + 0x48) src).setReg64 (chB c + 0x50) dst

/-- R267: the fill F. -/
def State.fill (s : State) (c : Nat) : Int :=
  let po := s.bus.reg (chB c + 0x34)
  let adv := (s.bus.count (bits po 13 0) + 2 ^ 32 - (s.ch c).c0.toNat) % 2 ^ 32
  ((s.ch c).written : Int) - (adv * 2 ^ bits po 27 24 : Nat)

/-- R268: bytes of the lap at which HALF is set: half of T, T leaving out rows that are not written. -/
def Bus.lapTotal (b : Bus) (c : Nat) : Nat :=
  let j := b.chJob c
  let n := if b.chIdx c = 2 then ((List.range j.rows).filter (fun r => decide (b.chEntry c r ≠ some 0xFFFFFFFF))).length else j.rows
  n * j.dstBytes

/-- R261: every row of the lap is written. -/
def Bus.lapDone (b : Bus) (c : Nat) : Bool :=
  decide (b.field (chB c + 0x1C) 16 0 ≤ b.reg (chB c + 0x58)) || decide (b.field (chB c + 0x18) 24 0 = 0)

/-- R418: the packets of channel `c` to peers not yet acknowledged: tag and bytes. -/
def State.chTags (s : State) (c : Nat) : List (Nat × Nat) :=
  s.kydor.tags.filterMap (fun t => match t.2.2 with
    | .write _ n (some d) => if d = c then some (t.1, n) else none
    | _ => none)

/-- Bytes of channel `c` on their way to peers, those that this command still has to send among them. -/
def State.chAway (s : State) (c : Nat) : Nat :=
  lsum ((s.chTags c).map (·.2)) + lsum (s.bus.late.map (fun l => match l with
    | .remote _ bs _ _ _ (some d) => if d = c then bs.length else 0
    | _ => 0))

/-- HALF and its interrupt, once a lap. -/
def State.halfNow (s : State) (c : Nat) : State :=
  if (s.ch c).half then s else (s.onBus (fun b => (b.raise (chB c + 0x40) 28).chIrq c 31)).setCh c { s.ch c with half := true }

/-- R268: HALF, when the lap's bytes that count as written reach half of T. -/
def State.halfDue (s : State) (c : Nat) : State :=
  let n := (s.ch c).lapBytes - (if s.bus.chAck c then s.chAway c else 0)
  if 0 < n ∧ ceilDiv (s.bus.lapTotal c) 2 ≤ n then s.halfNow c else s

/-- R268: the end of a lap; where its rows write nothing, HALF comes with it. -/
def State.lapEnd (s : State) (c : Nat) : State :=
  let s := s.halfNow c
  let b := (s.bus.raise (chB c + 0x40) 27).chIrq c 30
  let nf := b.reg (chB c + 0x38)
  let b := if bit nf 15 then b.add (bits nf 13 0) 1 else b
  let b := if b.chCirc c then (b.setReg (chB c + 0x60) ((b.reg (chB c + 0x60) + 1) % 2 ^ 32)).setCur c 0 0 else b.setChState c 0
  { s with bus := b }.setCh c { s.ch c with lapBytes := 0, half := false, idxLines := 0, posted := !(b.chAck c) }

/-- R264, R267, R270: START on channel `c`. -/
def State.dmaStart (s : State) (c : Nat) : State :=
  if s.bus.booked c || decide (s.bus.chState c ≠ 0) || s.bus.startBad c then s.onBus (·.cfgErr c)
  else
    let b := (s.bus.setCur c 0 0).setReg (chB c + 0x60) 0
    let s := { s with bus := b }.setCh c
      { c0 := BitVec.ofNat 32 (b.count (b.field (chB c + 0x34) 13 0)), fencing := (s.ch c).fencing, fence := (s.ch c).fence }
    if b.flag (chB c + 0x3C) 1 then s.onBus (·.setChState c 4)
    else if b.lapDone c && !(b.chCirc c) then s.lapEnd c
    else s.onBus (·.setChState c 1)

/-- R264 DMA_START. -/
def execDmaStart (c : Fin 64) (s : State) : Host.Outcome State Fault Refusal := .next (s.main fun s => s.dmaStart c.val)

/-- R271: the error recorded: code, side, row and failing address; the interrupt when FULL_EN is set. -/
def Bus.dmaRecord (b : Bus) (c code : Nat) (write : Bool) (row addr : Nat) : Bus :=
  let b := (b.raise (chB c + 0x40) 31).setReg (chB c + 0x70) (code % 16 * 2 ^ 28 + b2n write * 2 ^ 27 + row % 2 ^ 17)
  let b := b.setReg64 (chB c + 0x68) addr
  let b := if code = 2 ∨ code = 6 then b else b.inc (engB c + 0x114)
  b.chIrq c 30

/-- R271: an error recorded, with POST_DONE where it came after FULL without ACK. -/
def Bus.dmaErr (b : Bus) (c : Nat) (e : DmaErr) : Bus :=
  (if e.post then b.raise (chB c + 0x40) 30 else b).dmaRecord c e.code e.write e.row e.addr

/-- R271: the first error of a channel: it issues no more and drains in STOPPING; one that comes in IDLE is recorded at once. -/
def State.dmaFail (s : State) (c : Nat) (e : DmaErr) : State :=
  if s.bus.chState c = 0 then s.onBus (·.dmaErr c e)
  else if (s.ch c).fail.isSome then s
  else (s.onBus (·.setChState c 5)).setCh c { s.ch c with fail := some e }

/-- R271: the rows of the channel's transfer whose bytes on the failing side hold address `a`. -/
def Bus.rowsAt (b : Bus) (c : Nat) (write : Bool) (a : Nat) : List Nat :=
  let j := b.chJob c
  (List.range j.rows).filter (fun r =>
    match b.chRow c (if write then 2 else 1) r with
    | none => false
    | some v =>
      let o := if write then b.dstRow c v else b.srcRow c v
      (if write then j.writes 0 j.rowBytes else j.reads 0 j.rowBytes).any (fun x =>
        decide ((a + 2 ^ 64 - (o + x.1) % 2 ^ 64) % 2 ^ 64 < x.2)))

/-- A row of `l`, or any row at all where it is empty; which one of several is left open. -/
def Bus.someRow (b : Bus) (l : List Nat) : Nat :=
  let w := (Config.freeWord b.free).toNat
  match l with
  | [] => w % 2 ^ 17
  | [r] => r
  | r :: _ => l.getD (w % l.length) r

/-- R271: an error that comes back to the channel for address `addr`: its row is the one that has the address; a write error after a lap
without ACK comes after FULL where the channel is IDLE or the row not yet written in this lap. -/
def State.dmaLate (s : State) (c code : Nat) (write : Bool) (addr : Nat) : State :=
  let row := s.bus.someRow (s.bus.rowsAt c write addr)
  let old := decide (s.bus.chState c = 0 ∨ s.bus.reg (chB c + 0x58) < row) || (Config.freeWord (s.bus.free + 1)).getLsbD 0
  let e : DmaErr := { code := code, write := write, row := row, addr := addr, post := write && (s.ch c).posted && old }
  let s := s.onBus (fun b => { b with free := b.free + 2 })
  if s.bus.chState c = 0 ∧ e.post = false then s else s.dmaFail c e

/-- R143: the context of channel `c` whose step has writes that peers have not yet answered. -/
def State.dmaOwing (s : State) (c : Fin 64) : Option (Fin 2 × Ctx × OpenFrame) :=
  [(0 : Fin 2), 1].findSome? (fun p =>
    match s.ctx (.dma c) p with
    | none => none
    | some x => if x.tags = [] ∧ x.owed = [] then none else (s.fseq.frame x.frame).map (fun fr => (p, x, fr)))

/-- R144, R271: the fault code of an error. -/
def dmaFault (code : Nat) : Nat := if code = 2 then 0x07 else if code = 6 then 0x03 else 0x08

/-- R143, R271: an error that comes back for a step of channel `c`: recorded, and its task stops before its DONE. -/
def State.dmaStepLate (s : State) (c : Fin 64) (p : Fin 2) (x : Ctx) (fr : OpenFrame) (e : DmaErr) : State :=
  (s.onBus (·.dmaErr c.val e)).stopTask (.dma c) p x fr [dmaFault e.code]

/-- R271 DMA_ERROR: an error that comes back for a transfer, or for a step whose writes are on their way; the row of the latter is the
manual's to state. -/
def execDmaError (c : Fin 64) (code : BitVec 4) (write : Bool) (addr : BitVec 64) (s : State) : Host.Outcome State Fault Refusal :=
  .next (s.main fun s =>
    match s.dmaOwing c with
    | some (p, x, fr) =>
      if s.bus.chState c.val = 0 then
        (s.onBus (fun b => { b with free := b.free + 1 })).dmaStepLate c p x fr
          { code := code.toNat, write := write, row := s.bus.someRow [], addr := addr.toNat }
      else s.dmaLate c.val code.toNat write addr.toNat
    | none => s.dmaLate c.val code.toNat write addr.toNat)

/-- R261: rows that are neither read nor written are passed over. -/
def Bus.skipRows (b : Bus) (c : Nat) : Nat → Bus
  | 0 => b
  | n + 1 =>
    let r := b.reg (chB c + 0x58)
    if b.chIdx c = 2 ∧ r < b.field (chB c + 0x1C) 16 0 ∧ b.chEntry c r = some 0xFFFFFFFF then (b.setCur c (r + 1) 0).skipRows c n else b

/-- A destination line: its address and data. -/
abbrev PLine := Nat × PBytes

/-- The lines of the writes of a block. -/
def placeLines (base : Nat) (l : List ((Nat × Nat) × PBytes)) : List PLine :=
  (l.map (fun x =>
    let a := (base + x.1.1) % 2 ^ 64
    (lines (x.2.length / 64 + 2) a x.2.length).map (fun y => (y.1, (x.2.drop (y.1 - a)).take y.2)))).flatten

/-- The channel moves on past the block of `n` bytes at byte `k` of row `r`. -/
def Bus.nextBlock (b : Bus) (c r k n : Nat) : Bus :=
  if b.field (chB c + 0x18) 24 0 ≤ k + n then b.setCur c (r + 1) 0 else b.setCur c r (k + n)

/-- R262, R270: the block that the channel is at: its first byte in the row, and its length. -/
def Bus.curBlock (b : Bus) (c : Nat) : Nat × Nat :=
  let k := b.reg (chB c + 0x5C)
  (k, Nat.min (b.chJob c).block (b.field (chB c + 0x18) 24 0 - k))

/-- The channel moves on past its block. -/
def Bus.pastBlock (b : Bus) (c : Nat) : Bus := b.nextBlock c (b.reg (chB c + 0x58)) (b.curBlock c).1 (b.curBlock c).2

/-- R267, R268: line `l` of the block written, the lines `ls` still to come. -/
def State.putLine (s : State) (c : Nat) (l : PLine) (ls : List PLine) : State :=
  let x := s.ch c
  let p := s.bus.dmaPut c (s.bus.dstSpace c) l.1 l.2
  if p.2 = false then
    ({ s with bus := p.1 }.setCh c { x with buf := ls }).dmaFail c { code := 1, write := true, row := s.bus.reg (chB c + 0x58), addr := l.1 }
  else
    let b := p.1.inc (engB c + 0x104)
    let s := { s with bus := b }.setCh c { x with written := x.written + 1, lapBytes := x.lapBytes + l.2.length, buf := ls }
    let s := if ls = [] ∧ x.fail = none then s.onBus (·.pastBlock c) else s
    s.halfDue c

/-- R261, R262: the channel's next block read, at source row `v`, and its first line written, at destination row `w`. -/
def State.readBlock (s : State) (c v w : Nat) : State :=
  let j := s.bus.chJob c
  let k := (s.bus.curBlock c).1
  let n := (s.bus.curBlock c).2
  let g : DmaGot := if s.bus.chIdx c = 1 ∧ v = 0xFFFFFFFF then { bus := s.bus, data := (zeros n).map (fun z => (z, false)) }
    else (j.reads k n).foldl (fun (q : DmaGot) y => q.read (s.bus.srcSpace c) ((s.bus.srcRow c v + y.1) % 2 ^ 64) y.2) { bus := s.bus }
  let b := (g.bus.bump (engB c + 0x100) g.nLine).bump (engB c + 0x118) g.nBad
  let s' := { s with bus := { b with late := b.late ++ g.reads.flatMap (fun (x : Nat × Nat) => s.bus.regReads (dmaReq (c / 16)) x.1 x.2) } }
  match g.err with
  | some a => s'.dmaFail c { code := 1, write := false, row := s.bus.reg (chB c + 0x58), addr := a }
  | none =>
    match placeLines (s.bus.dstRow c w) ((j.writes k n).zip (j.place n g.data)) with
    | [] => s'.onBus (·.pastBlock c)
    | l :: ls => s'.putLine c l ls

/-- R261, R274: the index lines up to the one of the row that the channel has come to, each fetched once a lap and counted. -/
def State.indexLines (s : State) (c : Nat) : State :=
  let b := s.bus
  let rows := b.field (chB c + 0x1C) 16 0
  if b.chIdx c = 0 ∨ rows = 0 then s
  else
    let a0 := b.entryAddr c 0
    let n := b.entryAddr c (Nat.min (b.reg (chB c + 0x58)) (rows - 1)) / 64 - a0 / 64 + 1
    let was := (s.ch c).idxLines
    let reads := (tab (n - was) (fun i => b.regReads (dmaReq (c / 16)) ((a0 / 64 + was + i) * 64) 64)).flatten
    (s.onBus (fun b => let b := b.bump (engB c + 0x108) (n - was); { b with late := b.late ++ reads })).setCh c
      { s.ch c with idxLines := Nat.max was n }

/-- R267: the channel's next line, or PACED. -/
def State.dmaLine (s : State) (c : Nat) : State :=
  let st := s.bus.chState c
  let x := s.ch c
  if s.bus.flag (engB c) 0 = false ∨ s.hostUp (s.bus.dstSpace c) = false ∨ (x.buf = [] ∧ s.hostUp (s.bus.srcSpace c) = false)
      ∨ ¬(st = 1 ∨ ((st = 3 ∨ st = 5) ∧ x.buf ≠ [])) then s
  else
    let s := if x.buf = [] then (s.onBus (fun b => b.skipRows c (b.field (chB c + 0x1C) 16 0))).indexLines c else s
    if s.bus.lapDone c then s
    else if st = 1 ∧ s.bus.flag (chB c + 0x34) 31 = true ∧ (s.bus.field (chB c + 0x30) 31 16 : Int) ≤ s.fill c then
      s.onBus (fun b => (b.setChState c 2).inc (engB c + 0x10C))
    else
      match x.buf with
      | l :: ls => s.putLine c l ls
      | [] =>
        let r := s.bus.reg (chB c + 0x58)
        match s.bus.chRow c 1 r, s.bus.chRow c 2 r with
        | some v, some w => s.readBlock c v w
        | _, _ => s.dmaFail c { code := 7, write := false, row := r, addr := s.bus.entryAddr c r / 64 * 64 }

/-- R267 DMA_LINE_WRITE. -/
def runDmaLineWrite (c : Fin 64) (s : State) : Host.Outcome State Fault Refusal := .next (s.main fun s => s.dmaLine c.val)

/-- R267 PACE_RESUME. -/
def execPaceResume (c : Fin 64) (s : State) : Host.Outcome State Fault Refusal :=
  .next (s.main fun s =>
    if s.bus.chState c.val = 2 ∧ s.fill c.val ≤ (s.bus.field (chB c.val + 0x30) 15 0 : Int) then s.onBus (·.setChState c.val 1) else s)

/-- R268 LAP_END: every row of the lap is written; with ACK, every write of it acknowledged too. -/
def execLapEnd (c : Fin 64) (s : State) : Host.Outcome State Fault Refusal :=
  .next (s.main fun s =>
    let st := s.bus.chState c.val
    if (st = 1 ∨ st = 2 ∨ st = 3) ∧ s.bus.lapDone c.val = true ∧ (s.bus.chAck c.val = true → s.chTags c.val = []) then s.lapEnd c.val else s)

/-- R270: PAUSE set: a channel with work left moves to PAUSING; one whose last line is written completes. -/
def Bus.dmaPause (b : Bus) (c : Nat) : Bus :=
  let b := b.setFlag (chB c + 0x3C) 1 true
  if (b.chState c = 1 ∨ b.chState c = 2) ∧ (b.lapDone c = false ∨ b.chCirc c = true) then b.setChState c 3 else b

/-- R270 DMA_PAUSE. -/
def execDmaPause (c : Fin 64) (s : State) : Host.Outcome State Fault Refusal :=
  .next (s.main fun s => s.onBus (fun b => b.unbooked c.val (·.dmaPause c.val)))

/-- R270: the last write of a PAUSING channel has left the engine: PAUSED, or RUN again where PAUSE has been cleared. -/
def State.dmaPaused (s : State) (c : Nat) : State :=
  if s.bus.chState c = 3 ∧ (s.ch c).buf = [] then
    s.onBus (fun b => (b.setChState c (if b.flag (chB c + 0x3C) 1 then 4 else 1)).inc (engB c + 0x110))
  else s

/-- R270 DMA_PAUSED. -/
def execDmaPaused (c : Fin 64) (s : State) : Host.Outcome State Fault Refusal := .next (s.main fun s => s.dmaPaused c.val)

/-- R270: PAUSE cleared: a PAUSED channel resumes. -/
def Bus.dmaResume (b : Bus) (c : Nat) : Bus :=
  let b := b.setFlag (chB c + 0x3C) 1 false
  if b.chState c = 4 then b.setChState c 1 else b

/-- R270 DMA_RESUME. -/
def execDmaResume (c : Fin 64) (s : State) : Host.Outcome State Fault Refusal :=
  .next (s.main fun s => s.onBus (fun b => b.unbooked c.val (·.dmaResume c.val)))

/-- R270: ABORT in any state but IDLE; a channel in STOPPING goes on draining. -/
def State.dmaAbort (s : State) (c : Nat) : State :=
  if s.bus.chState c = 0 ∨ s.bus.chState c = 5 then s else (s.onBus (·.setChState c 5)).setCh c { s.ch c with aborted := true }

/-- R270 DMA_ABORT. -/
def execDmaAbort (c : Fin 64) (s : State) : Host.Outcome State Fault Refusal :=
  .next (s.main fun s => if s.bus.booked c.val then s.onBus (·.cfgErr c.val) else s.dmaAbort c.val)

/-- R270, R271 DMA_STOPPED: the last write of a STOPPING channel has left the engine: an error is recorded, an ABORT sets ABORTED. -/
def execDmaStopped (c : Fin 64) (s : State) : Host.Outcome State Fault Refusal :=
  .next (s.main fun s =>
    let x := s.ch c.val
    if s.bus.chState c.val = 5 ∧ x.buf = [] then
      (s.onBus (fun b =>
        let b := match x.fail with | some e => b.dmaErr c.val e | none => b
        let b := if x.aborted then b.raise (chB c.val + 0x40) 26 else b
        b.setChState c.val 0)).setCh c.val { x with fail := none, aborted := false }
    else s)

/-- R269: FENCE clears FENCED; on an IDLE channel whose writes are all performed it sets FENCED at once. -/
def State.fence (s : State) (c : Nat) : State :=
  let away := (s.chTags c).map (·.1)
  if s.bus.chState c = 0 ∧ away = [] then (s.onBus (·.setFlag (chB c + 0x40) 25 true)).setCh c { s.ch c with fencing := false, fence := [] }
  else (s.onBus (·.setFlag (chB c + 0x40) 25 false)).setCh c { s.ch c with fencing := true, fence := away }

/-- R269 DMA_FENCE. -/
def execDmaFence (c : Fin 64) (s : State) : Host.Outcome State Fault Refusal :=
  .next (s.main fun s => if s.bus.booked c.val then s.onBus (·.cfgErr c.val) else s.fence c.val)

/-- R269 FENCED: every write issued before the FENCE has been performed. -/
def execFenced (c : Fin 64) (s : State) : Host.Outcome State Fault Refusal :=
  .next (s.main fun s =>
    let x := s.ch c.val
    if x.fencing && !((s.chTags c.val).any (fun t => x.fence.contains t.1)) then
      (s.onBus (·.setFlag (chB c.val + 0x40) 25 true)).setCh c.val { x with fencing := false, fence := [] }
    else s)

/-- R260, R270: a write of CH_CTRL: FENCE, ABORT, PAUSE, then START. -/
def State.chCtrl (s : State) (c v : Nat) : State :=
  if s.bus.booked c then s.onBus (·.cfgErr c)
  else
    let s := if bit v 3 then s.fence c else s
    let s := if bit v 2 then s.dmaAbort c else s
    let s := s.onBus (fun b => if bit v 1 then b.dmaPause c else b.dmaResume c)
    if bit v 0 then s.dmaStart c else s

-- Steps (R265, R266) -------------------------------------------------------------------------------------------------------------

/-- R265: the transfer of a step: ROWS, ROW_BYTES in 8-byte units, PLANE_STRIDE in 64-byte units. -/
def stepJob (e : StepEnv) : DmaJob :=
  let op := e.d.op
  { shuf := bits op 11 8 - 3, e := 2 ^ bits op 7 6, p := bits op 5 2 + 1, rows := e.dim 0, rowBytes := 8 * e.dim 1, ps := 64 * e.dim 2 }

/-- The ranges of the rows of one operand. -/
def dmaRanges (e : StepEnv) (i : Nat) (l : List (Nat × Nat)) : List (Nat × Nat) :=
  (tab (e.dim 0) (fun r => l.map (fun x => (8 * (e.d.opnd i).rowStride * r + x.1, x.2)))).flatten

/-- R266: the bound check covers the index table and every operand that is not indexed. -/
def dmaAccs (e : StepEnv) (idx : Nat) : List Acc :=
  let j := stepJob e
  [engAcc 0 false (if idx = 1 then [] else dmaRanges e 0 (j.reads 0 j.rowBytes)),
   engAcc 1 true (if idx = 2 then [] else dmaRanges e 1 (j.writes 0 j.rowBytes))]
    ++ (if idx = 0 then [] else [engAcc 2 false [(0, 4 * e.dim 0)]])

/-- What a step has met: the bus, its reads, poison read, and the error. -/
structure DmaRun where
  bus : Bus
  reads : List (Nat × Nat) := []
  read : Bool := false
  err : Option DmaErr := none

/-- R266: an indexed row of `n` bytes pieces `l` lies in its slot. -/
def rowInside (e : StepEnv) (i a : Nat) (l : List (Nat × Nat)) : Bool :=
  let r := operandSlot e.x (e.d.opnd i)
  l.all (fun x => decide (x.2 = 0 ∨ (r.base ≤ a + x.1 ∧ a + x.1 + x.2 ≤ r.base + r.bytes)))

/-- R261, R262, R272: row `r` read at source row `v` and written at destination row `w`. -/
def dmaRow (e : StepEnv) (c idx r v w : Nat) (q : DmaRun) : DmaRun :=
  let j := stepJob e
  let gap := idx = 1 ∧ v = 0xFFFFFFFF
  let rd := j.reads 0 j.rowBytes
  let wr := j.writes 0 j.rowBytes
  if idx = 1 ∧ v ≠ 0xFFFFFFFF ∧ rowInside e 0 (e.row 0 v) rd = false then
    { q with err := some { code := 6, write := false, row := r, addr := e.row 0 v } }
  else if idx = 2 ∧ rowInside e 1 (e.row 1 w) wr = false then { q with err := some { code := 6, write := true, row := r, addr := e.row 1 w } }
  else
    let g : DmaGot := if gap then { bus := q.bus, data := (zeros j.rowBytes).map (fun z => (z, false)) }
      else rd.foldl (fun (g : DmaGot) x => g.read 0 (e.row 0 v + x.1) x.2) { bus := q.bus }
    let q := { q with bus := (g.bus.bump (engB c + 0x100) g.nLine).bump (engB c + 0x118) g.nBad, reads := q.reads ++ g.reads,
                      read := q.read || decide (0 < g.nBad) }
    match g.err with
    | some a => { q with err := some { code := 1, write := false, row := r, addr := a } }
    | none =>
      let pad := roundUp g.data.length (j.p * j.e) - g.data.length
      let f := if j.shuf = 1 then q.bus.freshN pad else ([], q.bus)
      (wr.zip (j.place j.rowBytes (g.data ++ f.1.map (fun z => (z, false))))).foldl (fun (q : DmaRun) x =>
        if q.err.isSome then q
        else
          let a := e.row 1 w + x.1.1
          let t := stepWrite e q.bus 1 a (x.2.map (·.1)) ((q.bus.isRemote a && x.2.any (·.2)) || e.x.taint)
          match t.2 with
          | .done => { q with bus := (t.1.markBytes a x.2).bump (engB c + 0x104) (ceilDiv (x.2.length + a % 64) 64) }
          | .busErr => { q with bus := t.1, err := some { code := 1, write := true, row := r, addr := a } }
          | .unfed => { q with bus := t.1, err := some { code := 2, write := true, row := r, addr := a } })
        { q with bus := f.2 }

/-- R266: the rows of a step in order, up to the first error. -/
def dmaRows' (e : StepEnv) (c idx : Nat) (q : DmaRun) : DmaRun :=
  (List.range (e.dim 0)).foldl (fun (q : DmaRun) r =>
    if q.err.isSome then q
    else if idx = 0 then dmaRow e c 0 r r r q
    else
      let a := e.base 2 + 4 * r
      let l := a / 64 * 64
      let q := if r = 0 ∨ a % 64 = 0 then { q with bus := (q.bus.afterFetch l 64).inc (engB c + 0x108), reads := q.reads ++ [(l, 64)] } else q
      match q.bus.entryAt a with
      | none => { q with err := some { code := 7, write := false, row := r, addr := l } }
      | some v =>
        if idx = 1 then dmaRow e c 1 r v r q
        else if v = 0xFFFFFFFF then q
        else dmaRow e c 2 r r v q) q

/-- R265, R266, R271, R272: a DMA step of DOP `op`. It waits for a register-mode transfer to end (R260). -/
def dmaUnit (c op : Nat) : UnitOp :=
  let idx := if op = 2 then 1 else if op = 3 then 2 else 0
  { sel := fun d => d.unit = 9 && decide (bits d.op 11 8 = op)
    ready := fun _ s => s.bus.flag (engB c) 0 && decide (s.bus.chState c = 0)
    accs := fun e _ => dmaAccs e idx
    eff := fun e s =>
      let q := if e.dim 1 = 0 then { bus := s.bus } else dmaRows' e c idx { bus := s.bus }
      let poison := if q.read then [0x11] else []
      match q.err with
      | none => { s := { s with bus := q.bus }, reads := some q.reads, codes := poison }
      | some x =>
        { s := { s with bus := q.bus.dmaErr c x }, reads := some q.reads, codes := poison ++ [dmaFault x.code], signals := false } }

/-- R265 COPY. -/
def runDmaCopy (c : Fin 64) (p : Fin 2) (s : State) : Host.Outcome State Fault Refusal := .next (runStep (.dma c) p (dmaUnit c.val 1) s)
/-- R265, R266 GATHER: rows by source index. -/
def runDmaGather (c : Fin 64) (p : Fin 2) (s : State) : Host.Outcome State Fault Refusal := .next (runStep (.dma c) p (dmaUnit c.val 2) s)
/-- R265, R266 SCATTER: rows by destination index. -/
def runDmaScatter (c : Fin 64) (p : Fin 2) (s : State) : Host.Outcome State Fault Refusal := .next (runStep (.dma c) p (dmaUnit c.val 3) s)
/-- R262, R265 DEINTERLEAVE. -/
def runDmaDeinterleave (c : Fin 64) (p : Fin 2) (s : State) : Host.Outcome State Fault Refusal :=
  .next (runStep (.dma c) p (dmaUnit c.val 4) s)
/-- R262, R265 INTERLEAVE. -/
def runDmaInterleave (c : Fin 64) (p : Fin 2) (s : State) : Host.Outcome State Fault Refusal :=
  .next (runStep (.dma c) p (dmaUnit c.val 5) s)
/-- R262, R265 BITPLANE. -/
def runDmaBitplane (c : Fin 64) (p : Fin 2) (s : State) : Host.Outcome State Fault Refusal :=
  .next (runStep (.dma c) p (dmaUnit c.val 6) s)

end Sys2Proof.Machine
end

