-- ==== Sys2Proof/Machine/Registers.lean ====
section
/-! DEFINITION. Reads and writes of registers (R10 to R14, R18, R27): the value each word reads as, the snapshots and held
writes of 64-bit registers, and what a write to each register does, block by block. -/

namespace Sys2Proof.Machine

-- What a word reads as ------------------------------------------------------------------------------------------------------------

/-- Device time of time engine `d`, in 2^-16 ns (R276, R277): TIME1's copy lies within 4 ns of TIME0. -/
def State.timeFine (s : State) (d : Nat) : Nat :=
  if d = 0 then s.net.fine.toNat else (s.net.fine + (Config.freeWord s.bus.free).toNat % 524289 - 262144).toNat

/-- R274: DMA_STATUS of engine `q`: ERR of its channels above BUSY. -/
def Bus.dmaStatus (b : Bus) (q : Nat) : Nat :=
  maskOf ((List.range 16).filter (fun i => decide (b.chState (16 * q + i) ≠ 0)))
    + 2 ^ 16 * maskOf ((List.range 16).filter (fun i => b.flag (chB (16 * q + i) + 0x40) 31))

/-- R92: lookups of BSE `q` that a peer has not answered yet. -/
def State.bseOutstanding (s : State) (q : Nat) : Nat :=
  (s.kydor.tags.filter (fun t => match t.2.2 with | .lookup _ _ k => decide (k = q) | _ => false)).length

/-- The acknowledgements and answers that a unit's tasks still wait for: its fabric transactions in flight to peers. -/
def State.inFlight (s : State) (f : UnitId → Bool) : Nat :=
  lsum (s.fseq.ctxs.map (fun c => if f c.1.1 then c.2.tags.length + c.2.owed.length else 0))

/-- R182: CTX0 and CTX1 of station `i`. -/
def State.ctxWord (s : State) (i p : Nat) : Nat :=
  match s.fseq.ctxs.find? (fun c => match c.1.1 with | .stn n => decide (n.val = i ∧ c.1.2.val = p) | _ => false) with
  | some (_, x) => 2 ^ 31 + x.task % 1024 * 65536 + x.step % 65536
  | none => 0

/-- R182: a step of station `i` is in progress: its signals still wait for its writes. -/
def State.stnBusy (s : State) (i : Nat) : Bool :=
  s.fseq.ctxs.any (fun c => match c.1.1 with | .stn n => decide (n.val = i) && c.2.due.isSome | _ => false)

/-- Whether a read of the word shows a value that the manual does not promise: TIME1's time (R276), and the stamp words of an empty
queue (R300). -/
def State.openRead (s : State) (l : RegLoc) : Bool :=
  match l.block with
  | .time => decide (l.inst = 1 ∧ 8 ≤ l.row.off)
  | .eth => decide (l.row.off = 0x30) && decide ((s.net.port l.inst).stamps = [])
  | _ => false

/-- R444: the limit in force, in W: a written one from the first millisecond boundary after its write. -/
def State.limitNow (s : State) : Nat :=
  let old := if s.bus.reg (pwrB + 4) = 0 then s.bus.variant.powerLimit else s.bus.reg (pwrB + 4)
  match s.plat.pendLimit with
  | some w => if s.plat.pendAt / 1000000 < s.now / 1000000 then w else old
  | none => old

/-- What the word at `a` holds for a reader (the Junesha window computes its words once the other dies are released, R352), before the bits
that do not read back are taken off. -/
def State.liveWord (s : State) (l : RegLoc) (a : Nat) : Nat :=
  let b := s.bus
  let half (v : Nat) : Nat := halfOf l.upper v
  match l.block with
  | .sdwin =>
    let up (v : Nat) : Nat := if s.sd.state = .boot ∨ s.sd.state = .off then 0 else v
    match l.row.off with
    | 0x0000 => up s.sdState
    | 0x0004 => up s.kmStatus
    | 0x0008 => s.sd.lastFrame % 2 ^ 32
    | 0x000C => s.sd.lastReason.toNat * 2 ^ 16 + b2n s.sd.lastValid
    | 0x0010 => s.sd.lastCells.toNat
    | 0x0014 => s.sd.lastMissed.toNat
    | 0x0018 => up s.marginFloor
    | 0x0020 => s.sd.mech.toNat
    | _ => b.reg a
  | .time =>
    match l.row.off with
    | 0x0008 => half (s.timeFine l.inst / 65536)
    | 0x0010 => s.timeFine l.inst % 65536
    | 0x0004 => b.reg (timeB 0 + 4)
    | _ => b.reg a
  | .fseq => if l.row.off = 0x30 then setBits (b.reg a) 31 16 (s.spareElapsed s.now) else b.reg a
  | .stn =>
    match l.row.off with
    | 0x0000 => setBits (b.reg a) 0 0 (b2n (s.stnBusy l.inst))
    | 0x0018 => s.ctxWord l.inst 0
    | 0x001C => s.ctxWord l.inst 1
    | _ => b.reg a
  | .rbe => if l.row.off = 4 then setBits (b.reg a) 5 0 (Nat.min 32 (s.inFlight (fun u => unitNo u = 39 + l.inst))) else b.reg a
  | .gme => if l.row.off = 4 then setBits (b.reg a) 6 0 (Nat.min 64 (s.inFlight (fun u => unitNo u = 43 + l.inst))) else b.reg a
  | .sme => if l.row.off = 4 then setBits (b.reg a) 7 0 (Nat.min 64 (s.inFlight (fun u => unitNo u = 55))) else b.reg a
  | .dma => if l.row.off = 4 then b.dmaStatus l.inst else b.reg a
  | .bse => if l.row.off = 4 then setBits (b.reg a) 7 0 (Nat.min 128 (s.bseOutstanding l.inst)) else b.reg a
  | .fab => if l.row.off = 0x20 then Nat.min 4096 s.kydor.tags.length else b.reg a
  | .cre =>
    if 0x120 ≤ l.row.off ∧ l.row.off < 0x13C then b.reg (activeAt (16 + l.idx) + (l.row.off - 0x120))
    else if l.row.off = 4 then setBits (b.reg a) 5 0 (Nat.min 32 (s.inFlight (fun u => unitNo u = 56 + l.inst)))
    else b.reg a
  | .eth =>
    if l.row.off = 4 then (if b.portUp l.inst then b.reg a else setBits (b.reg a) 30 30 0)
    else if l.row.off = 0x30 then s.txStampWord l.inst l.idx
    else if l.row.off = 0x3C then s.txStampWord l.inst 3
    else b.reg a
  | .pwr => if l.row.off = 4 then s.limitNow else b.reg a
  | _ => b.reg a

/-- R14: an access to an unmapped address. -/
def State.unmappedAccess (s : State) : State := s.onBus (fun b => { b with unmapped := Nat.min (b.unmapped + 1) 0xFFFFFFFF })

/-- R10, R11: the value a reader sees in the word at `a`. -/
def State.readValue (s : State) (l : RegLoc) (a : Nat) : Nat := s.liveWord l a &&& l.readMask

/-- What a read of a word does beside answering (R10, R13, R300): an RC counter keeps the `k` events of the reading cycle, the VALID
word of TX_STAMP pops its queue, and a value the manual leaves open is used up. -/
def State.readEffect (s : State) (l : RegLoc) (a k : Nat) : State :=
  let s := if s.openRead l then s.onBus (·.nextFree) else s
  if l.row.rc then s.onBus (fun b => (b.readClear a k).2)
  else if l.block = .eth ∧ l.row.off = 0x3C then s.stampPop l.inst
  else s

/-- R12: a word of a 64-bit register read by `r`: the lower word takes a snapshot of the upper, which a read of the upper word
returns and consumes. -/
def State.readWide (s : State) (r : Requester) (l : RegLoc) (a : Nat) : Nat × State :=
  if l.upper then
    match alook s.access.snaps (r, a - 4) with
    | some w => (w.toNat, { s with access := { s.access with snaps := adel s.access.snaps (r, a - 4) } })
    | none => (s.readValue l a, s.readEffect l a 0)
  else
    let up := BitVec.ofNat 32 (s.readValue { l with upper := true } (a + 4))
    let t := s.readEffect l a 0
    (s.readValue l a, { t with access := { t.access with snaps := aset t.access.snaps (r, a) up } })

/-- A read of the register word at `a` by `r`, `k` events coinciding with the clear of an RC counter: the value, and the state after. -/
def State.readWord (s : State) (r : Requester) (a k : Nat) : Nat × State :=
  match mappedReg s.bus.variant a with
  | none => (0, s.unmappedAccess)
  | some l => if l.row.wide then s.readWide r l a else (s.readValue l a, s.readEffect l a k)

/-- The words that `State.liveWord` computes from other state. -/
def liveAddrs : List Nat :=
  [0, 4, 8, 0xC, 0x10, 0x14, 0x18, 0x20].map (sdB + ·)
    ++ (List.range 2).flatMap (fun d => [4, 8, 0xC, 0x10].map (timeB d + ·))
    ++ (List.range 4).flatMap (fun q => [dmaB q + 4, bseB q + 4, rbeB q + 4])
    ++ (List.range 8).map (fun g => gmeB g + 4)
    ++ (List.range 32).flatMap (fun i => [0, 0x18, 0x1C].map (stnB i + ·))
    ++ [fabB + 0x20, pwrB + 4, fseqB + 0x30, smeB + 4, creB 0 + 4, creB 1 + 4]
    ++ (List.range 2).flatMap (fun c => (List.range 16).flatMap (fun k => (List.range 7).map (fun i => creB c + 0x120 + 64 * k + 4 * i)))
    ++ (List.range 16).flatMap (fun p => [4, 0x30, 0x34, 0x38, 0x3C].map (ethB p + ·))

/-- R10, R12: the view of requester `r` over the register words. -/
def State.viewFor (s : State) (r : Requester) : View :=
  { live := liveAddrs.filterMap (fun a => (mappedReg s.bus.variant a).map (fun l => (a, BitVec.ofNat 32 (s.readValue l a))))
    snaps := s.access.snaps.filterMap (fun x => if x.1.1 = r then some (x.1.2 + 4, x.2) else none) }

/-- The state with the view of the unit that runs. -/
def State.seenBy (s : State) (r : Requester) : State := s.onBus (fun b => { b with view := s.viewFor r })

-- What a write does -----------------------------------------------------------------------------------------------------------------

/-- R152: FSEQ_CTRL written: LOAD, then RUN. -/
def State.fseqCtrl (s : State) (v now : Nat) : State :=
  let s := if bit v 1 then s.onBus (·.startLoad) else s
  if bit v 0 then s.setRun now else s.onBus (·.setFlag fseqB 0 false)

/-- The frame sequencer's registers that are writable only while RUN = 0 (R136, R152). -/
def Bus.whenStopped (b : Bus) (f : Bus → Bus) : Bus := if b.flag fseqB 0 then b.fseqErr else f b

/-- R64: SIE_CTRL written. -/
def State.sieCtrl (s : State) (d v now : Nat) : State :=
  if bit v 0 then s.enableSie d now else s.disableSie d (bit v 1)

/-- R322: CAL_CTRL written: SUBMIT, APPLY, WITHDRAW, in that order. -/
def State.calCtrl (s : State) (v : Nat) : State :=
  let s := if bit v 0 then s.submitCal else s
  let s := if bit v 1 then s.applyCal else s
  if bit v 2 then s.withdrawCal else s

/-- R91: HC_CTRL written: PF_EN, HS_EN, HS_CLEAR, NEW_EPOCH. -/
def State.hcCtrl (s : State) (v : Nat) : State :=
  let s := s.onBus (fun b => (b.setFlag hcB 0 (bit v 0)).hsEn (bit v 1))
  let s := if bit v 2 then s.hsClear else s
  if bit v 3 then s.newEpoch else s

/-- R104: STATUS of object `n` written: KIND and IRQ_EN take their bits, a 1 clears REFUSED and with it REFUSE_CNT. -/
def Bus.syncStatus (b : Bus) (l : RegLoc) (a v : Nat) : Bus :=
  let b := b.writeBits l a v
  if bit v 22 then b.setField a 31 24 0 else b

/-- The states in which the registers of a calibrated installation are writable (R305, R320). -/
def State.calWritable (s : State) : Bool := decide (s.sd.state = .config) || decide (s.sd.state = .commission)

/-- R259: RING_CFG written: SLOTS_LOG2 keeps its value while EN is 1. -/
def Bus.ringCfg (b : Bus) (l : RegLoc) (a v : Nat) : Bus :=
  b.writeBits l a (if b.flag a 31 then setBits v 2 0 (b.field a 2 0) else v)

/-- R301: PORT_CFG written. -/
def Bus.portCfg (b : Bus) (l : RegLoc) (a v : Nat) : Bus :=
  let b := b.writeBits l a v
  if 2 ≤ bits v 30 29 then b.raise (a + 4) 31 else b

/-- R260, R264, R270, R275: a word of channel `c`'s registers written: a booked channel's are ignored, and configuration registers of
a running one. -/
def State.chWrite (s : State) (l : RegLoc) (c a v : Nat) : State :=
  match l.row.off with
  | 0x103C => s.chCtrl c v
  | 0x1040 => s.onBus (·.writeBits l a v)
  | _ => s.onBus (fun b => b.unbooked c (fun b => if b.chState c = 0 ∨ l.rwMask = 0 then b.writeBits l a v else b.cfgErr c))

/-- A write of the 32-bit register word `l` at `a`, and of one half of a 64-bit register that any write may change. -/
def State.writeReg (s : State) (l : RegLoc) (a v now : Nat) : State :=
  let plain := s.onBus (·.writeBits l a v)
  match l.block with
  | .fseq =>
    match l.row.off with
    | 0x0000 => s.fseqCtrl v now
    | 0x000C => s.onBus (·.whenStopped (·.writeBits l a v))
    | 0x0010 => s.onBus (·.whenStopped (·.writeBits l a v))
    | 0x002C => s.onBus (·.whenStopped (·.writeBits l a v))
    | 0x0018 => if s.bus.flag fseqB 0 then s else plain
    | _ => plain
  | .stn =>
    match l.row.off with
    | 0x0004 => if s.bus.flag fseqB 0 then s.onBus (·.raise (stnB l.inst) 31) else plain
    | 0x8000 => s.writePortmap ⟨l.inst % 32, by omega⟩ v
    | _ => plain
  | .qdsp => if l.row.off = 0x8000 then s.writePortmap ⟨32 + l.inst % 4, by omega⟩ v else plain
  | .sie =>
    match l.row.off with
    | 0x0000 => s.sieCtrl l.inst v now
    | 0x0050 => if s.bus.flag (sieB l.inst) 0 then s.onBus (·.raise (sieB l.inst + 4) 26) else plain
    | 0x0058 => if s.bus.flag (sieB l.inst) 0 then s.onBus (·.raise (sieB l.inst + 4) 26) else plain
    | 0x082C => plain.commitPose.retryCamPoses
    | _ => plain
  | .gme => if l.row.off = 0 then (s.onBus (·.setFlag a 0 (bit v 0))).writeTrainEn l.inst (bit v 1) else plain
  | .sme =>
    match l.row.off with
    | 0x0030 => if s.bus.flag fseqB 0 then s.onBus (·.raise (smeB + 4) 27) else plain
    | 0x0110 => s.onBus (·.ringCfg l a v)
    | 0x0118 => s.consIdx l.idx v
    | _ => plain
  | .cre =>
    if 0x120 ≤ l.row.off ∧ l.row.off < 0x13C then s.onBus (·.calRefuse)
    else if 0x100 ≤ l.row.off ∧ l.row.off < 0x120 ∧ s.calWritable = false then s.onBus (·.calRefuse)
    else plain
  | .cle =>
    match l.row.off with
    | 0x000C => s.calCtrl v
    | 0x1000 => if s.bus.calBusy then s.onBus (·.calRefuse) else plain
    | _ => plain
  | .dma => if 0x1000 ≤ l.row.off then s.chWrite l (16 * l.inst + l.idx) a v else plain
  | .time => if l.row.off = 0 then (let t := s.servoEn (bit v 0); if bit v 1 then t.servoReset else t) else plain
  | .hc =>
    match l.row.off with
    | 0x0000 => s.hcCtrl v
    | 0x0008 => s.onBus (·.hsCfgWrite (.cfg (BitVec.ofNat 32 v)))
    | _ => plain
  | .sync =>
    match l.row.off with
    | 0x4 => s.onBus (·.setTarget l.idx v)
    | 0x8 => s.onBus (·.syncStatus l a v)
    | 0xC => s.onBus (·.syncOp l.idx v)
    | _ => plain
  | .eth =>
    match l.row.off with
    | 0x0000 => s.onBus (·.portCfg l a v)
    | 0x0014 => if s.calWritable then plain else s.onBus (·.calRefuse)
    | 0x0018 => if s.calWritable then plain else s.onBus (·.calRefuse)
    | 0x001C => if s.calWritable then plain else s.onBus (·.calRefuse)
    | _ => plain
  | .sw => if l.row.off = 0x010C ∧ bit v 30 = true then plain.configChange (8 * l.inst + l.idx) now else plain
  | .kyd => if l.row.off = 0 then plain.kydCtrl l.inst (s.bus.flag a 0) (bit v 1) else plain
  | .egrd => if 0x100 ≤ l.row.off ∧ l.row.off < 0x200 ∧ s.sd.state ≠ .config then s.onBus (·.raise (egrdB l.inst) 31) else plain
  | _ => plain

/-- R12: a 64-bit register's lower word written, with the upper word that the requester held, if any. -/
def State.writeLower (s : State) (l : RegLoc) (a v now : Nat) (up : Option Nat) : State :=
  match l.block, l.row.off with
  | .time, 0x0038 => s.timeSet (v + 2 ^ 32 * up.getD 0)
  | .hc, 0x0010 => s.onBus (·.hsCfgWrite (.base (BitVec.ofNat 64 (v + 2 ^ 32 * up.getD (s.bus.reg (a + 4))))))
  | b, _ =>
    let twice := decide (b ≠ .dma) || (decide (s.bus.chState (16 * l.inst + l.idx) = 0) && !s.bus.booked (16 * l.inst + l.idx))
    let s := s.writeReg l a v now
    match (if twice then up else none) with
    | some u => s.writeReg { l with upper := true } (a + 4) u now
    | none => s

/-- R27: a write to the status window: no effect but in the Junesha die's diagnostics. -/
def State.sdWindow (s : State) (a v : Nat) : State :=
  s.onSd (fun s => { s with sd := { s.sd with windowWrites := s.sd.windowWrites ++ [(a, BitVec.ofNat 32 v)] } })

/-- R10 to R14, R27: a write of `v` to the register word at `a` by `r`. -/
def State.writeWord (s : State) (r : Requester) (a v now : Nat) : State :=
  if sdB ≤ a ∧ a < sdB + 0x100000 then
    if (mappedReg s.bus.variant a).isSome then s.sdWindow a v else (s.sdWindow a v).unmappedAccess
  else
    match mappedReg s.bus.variant a with
    | none => s.unmappedAccess
    | some l =>
      if l.row.wide = false then s.writeReg l a v now
      else if l.upper then { s with access := { s.access with held := aset s.access.held (r, a - 4) (BitVec.ofNat 32 v) } }
      else
        let up := (alook s.access.held (r, a)).map BitVec.toNat
        { s with access := { s.access with held := adel s.access.held (r, a) } }.writeLower l a v now up

end Sys2Proof.Machine
end

