-- ==== Sys2Proof/Machine/Images.lean ====
section
/-! DEFINITION. Block images (R392): register blocks mirrored as domains of the object dictionary. -/

namespace Sys2Proof.Machine

/-- A block image: the register address of its byte 0 and its length. -/
structure Image where
  base : Nat
  len : Nat
  deriving DecidableEq, Repr

/-- R18, R392: the image that entry `idx` holds in variant `v`; each reaches to its block's last register with an RW field. -/
def imageOf (v : Variant) (idx : Nat) : Option Image :=
  let d := if v.isX2 then 2 else 1
  if 0x3000 ≤ idx ∧ idx < 0x3000 + d then some { base := sieB (idx - 0x3000), len := 0x6000 }
  else if 0x3010 ≤ idx ∧ idx < 0x3010 + d then some { base := camB (idx - 0x3010), len := 0x300 }
  else if idx = 0x3020 then some { base := creB 0 + 0x100, len := 0x400 }
  else if idx = 0x3030 then some { base := hcB, len := 0x200 }
  else if idx = 0x4000 then some { base := timeB 0, len := 0x34 }
  else if 0x4010 ≤ idx ∧ idx < 0x4010 + 8 * d then some { base := ethB (idx - 0x4010), len := 0x24 }
  else if 0x4020 ≤ idx ∧ idx < 0x4020 + d then some { base := swB (idx - 0x4020), len := 0x10000 }
  else if 0x4028 ≤ idx ∧ idx < 0x4028 + d then some { base := mirrB (idx - 0x4028), len := 0x40 }
  else if 0x4030 ≤ idx ∧ idx < 0x4030 + d then some { base := egrdB (idx - 0x4030) + 0x100, len := 0x40 }
  else none

/-- The indices of the images. -/
def imageIndices (v : Variant) : List Nat :=
  ((List.range 2).map (0x3000 + ·) ++ (List.range 2).map (0x3010 + ·) ++ [0x3020, 0x3030, 0x4000] ++ (List.range 16).map (0x4010 + ·)
    ++ (List.range 2).map (0x4020 + ·) ++ (List.range 2).map (0x4028 + ·) ++ (List.range 2).map (0x4030 + ·)).filter
      (fun i => (imageOf v i).isSome)

/-- The mapped words of an image, ascending. -/
def Image.words (m : Image) (v : Variant) : List (Nat × RegLoc) :=
  (List.range (m.len / 4)).filterMap (fun i => (mappedReg v (m.base + 4 * i)).map (fun l => (m.base + 4 * i, l)))

/-- The current bytes of an image. -/
def State.imageRead (s : State) (m : Image) : List Byte :=
  ((List.range (m.len / 4)).map (fun i =>
    match mappedReg s.bus.variant (m.base + 4 * i) with
    | some l => leBytes 4 (s.readValue l (m.base + 4 * i))
    | none => zeros 4)).flatten

/-- R392: the word is one that its chapter does not let the present state write. -/
def State.wordLocked (s : State) (l : RegLoc) : Bool :=
  match l.block with
  | .egrd => decide (s.sd.state ≠ .config)
  | .eth => decide (0x14 ≤ l.row.off ∧ l.row.off ≤ 0x1C) && !s.calWritable
  | .cre => !s.calWritable
  | .hc => decide (l.row.off = 8 ∨ l.row.off = 0x10) && s.bus.flag hcB 1
  | .sie => decide (l.row.off = 0x50 ∨ l.row.off = 0x58) && s.bus.flag (sieB l.inst) 0
  | _ => false

/-- The word of an image that lies at register address `a`. -/
def Image.word (m : Image) (data : List Byte) (a : Nat) : Nat := fld data (a - m.base) 4

/-- R392: the image changes a field that the present state does not let be written. -/
def State.imageRefused (s : State) (m : Image) (data : List Byte) : Bool :=
  (m.words s.bus.variant).any (fun x =>
    s.wordLocked x.2 && decide ((m.word data x.1 ^^^ s.readValue x.2 x.1) &&& x.2.rwMask ≠ 0))

/-- R392: one word of an image written: its RW fields alone; a 64-bit register takes both halves at its lower word. -/
def State.imageWord (s : State) (m : Image) (data : List Byte) (now : Nat) (x : Nat × RegLoc) : State :=
  let v := m.word data x.1 &&& x.2.rwMask
  if x.2.row.rw = 0 ∨ x.2.upper = true then s
  else if x.2.row.wide then s.writeLower x.2 x.1 v now (some (m.word data (x.1 + 4) &&& ({ x.2 with upper := true } : RegLoc).rwMask))
  else if x.2.rwMask = 0 then s
  else s.writeReg x.2 x.1 v now

/-- R392: an image written, in ascending offset. -/
def State.imageWrite (s : State) (m : Image) (data : List Byte) (now : Nat) : State :=
  (m.words s.bus.variant).foldl (fun s x => s.imageWord m data now x) s

end Sys2Proof.Machine
end

