-- ==== Sys2Proof/Machine/Od.lean ====
section
/-! DEFINITION. The object dictionary's entries (R388 to R393, R408, R444, R460): their types and access, what a read returns, and
what a write of a plain entry does. Keys are index × 256 + sub-index. -/

namespace Sys2Proof.Machine

/-- R389. -/
inductive OdAcc where
  | ro | const | wo | rw | rwr | safe
  deriving DecidableEq, Repr

/-- R388, R390: how long a value is, and its limits: a number of `n` bytes between limits (`hw`: above its upper limit it exceeds a
hardware maximum), a domain of exactly `n` bytes, or bytes of any length. -/
inductive OdForm where
  | num (n lo hi : Nat) (hw : Bool)
  | exact (n : Nat)
  | any
  deriving DecidableEq, Repr

/-- An entry's access and form. -/
abbrev OdRow := OdAcc × OdForm

/-- A number of `n` bytes without limits of its own. -/
def odNum (n : Nat) : OdForm := .num n 0 (2 ^ (8 * n) - 1) false

/-- The entries from 0x1000 to 0x1FFF. -/
def odLow : List (Nat × OdRow) :=
  [(0x100000, (.const, odNum 4)), (0x100800, (.const, .any)), (0x100900, (.const, .any)), (0x100A00, (.ro, .any)),
   (0x101801, (.const, odNum 4)), (0x101802, (.const, odNum 4)), (0x101803, (.const, odNum 4)), (0x101804, (.const, odNum 4)),
   (0x101901, (.ro, .any)), (0x110001, (.rwr, .num 1 1 127 false)), (0x110002, (.rwr, odNum 4)), (0x110003, (.rwr, odNum 4)),
   (0x111001, (.rwr, odNum 4)), (0x111002, (.rwr, odNum 2)), (0x111003, (.rwr, odNum 4)),
   (0x1F5001, (.wo, .any)), (0x1F5002, (.wo, .any))]

/-- The entries from 0x2000 to 0x6FFF. -/
def odMid (v : Variant) : List (Nat × OdRow) :=
  [(0x200001, (.wo, odNum 1)), (0x200002, (.ro, odNum 1)), (0x200003, (.ro, odNum 1)), (0x200004, (.ro, odNum 1)),
   (0x200101, (.ro, odNum 4)), (0x200102, (.ro, odNum 1)), (0x200103, (.ro, odNum 2)),
   (0x210001, (.rwr, .num 2 80 v.powerLimit true)),
   (0x500001, (.ro, .exact 1024)), (0x500101, (.ro, .exact 1024)),
   (0x600001, (.ro, odNum 1)), (0x600101, (.rw, .any)), (0x600102, (.rw, .any)), (0x601001, (.rwr, .any)),
   (0x602001, (.rwr, .num 4 20000 100000 false)), (0x602002, (.rwr, odNum 8)), (0x602003, (.rwr, odNum 4))]

/-- The entries from 0x7000 on, but for BIST records. -/
def odHigh : List (Nat × OdRow) :=
  [(0x700001, (.wo, odNum 4)), (0x700002, (.ro, odNum 4)), (0x700003, (.ro, odNum 4)), (0x700004, (.ro, odNum 2)),
   (0x800001, (.ro, odNum 4)), (0x801001, (.ro, odNum 4)), (0x801002, (.ro, odNum 4)), (0x801003, (.ro, odNum 4)),
   (0x801004, (.ro, odNum 4)), (0x802001, (.ro, .exact 512)),
   (0x900006, (.rwr, .num 2 10 10000 false)), (0x900007, (.ro, odNum 4)), (0x900101, (.ro, .exact 32)), (0x900102, (.ro, .exact 16)),
   (0xA00001, (.wo, odNum 4)), (0xA00002, (.ro, odNum 4)), (0xA0F001, (.wo, .any))]

/-- R464: the records of the BIST units and stations. -/
def odBist : List (Nat × OdRow) :=
  (List.range 14).map (fun u => (odKey (0xA010 + u) 1, .ro, .exact 24)) ++ (List.range 32).map (fun n => (odKey (0xA040 + n) 1, .ro, .exact 24))

/-- The entries that are neither SAFE entries nor block images. -/
def odTable (v : Variant) : List (Nat × OdRow) := odLow ++ odMid v ++ odHigh ++ odBist

/-- The entry under key `k`; the limits of SAFE entries are those of `safeCheck`. -/
def odRow (v : Variant) (k : Nat) : Option OdRow :=
  match alook (odTable v) k with
  | some r => some r
  | none =>
    match safeKind k with
    | some _ => some (.safe, .any)
    | none => if k % 256 = 0 then (imageOf v (k / 256)).map (fun m => (.rwr, .exact m.len)) else none

/-- The highest sub-index of an object with sub-indices, 0 where there is none. -/
def odTop (v : Variant) (idx : Nat) : Nat :=
  (((odTable v).map (·.1)) ++ safeTable.map (·.1)).foldl (fun m k => if k / 256 = idx ∧ m < k % 256 then k % 256 else m) 0

/-- R396: the entries that the Junesha die serves itself. -/
def servedByJunesha (k : Nat) : Bool :=
  decide (k / 256 = 0x1019) || decide (k / 256 = 0x2000) || decide (0x7000 ≤ k / 256 ∧ k / 256 < 0x8000) || (safeKind k).isSome

/-- R387: the entries served in BOOT and SELFTEST. -/
def servedEarly (k : Nat) : Bool := decide (0x1000 ≤ k / 256 ∧ k / 256 < 0x2000) || decide (0x200002 ≤ k ∧ k ≤ 0x200004)

/-- Start-up is not over (R387). -/
def State.early (s : State) : Bool :=
  match s.sd.state with
  | .off => true
  | .boot => true
  | .selftest => true
  | _ => false

-- Values -----------------------------------------------------------------------------------------------------------------------------

/-- Bytes of a text. -/
def textBytes (t : List Nat) : List Byte := t.map (BitVec.ofNat 8)

/-- R391: DEVICE_NAME. -/
def deviceName : Variant → List Byte
  | .m2x1 => textBytes [0x51, 0x4D, 0x39, 0x36, 0x34, 0x30, 0x2D, 0x4D, 0x32, 0x58, 0x31]
  | .m4x1 => textBytes [0x51, 0x4D, 0x39, 0x36, 0x34, 0x30, 0x2D, 0x4D, 0x34, 0x58, 0x31]
  | .m4x2 => textBytes [0x51, 0x4D, 0x39, 0x36, 0x34, 0x30, 0x2D, 0x4D, 0x34, 0x58, 0x32]
  | .m6x2 => textBytes [0x51, 0x4D, 0x39, 0x36, 0x34, 0x30, 0x2D, 0x4D, 0x36, 0x58, 0x32]

/-- The bytes of a free version string: a length of at most 64, then its characters (R388, R391). -/
def versionBytes (f : Nat → Byte) : List Byte := tab ((f 0).toNat % 65) (fun i => f (i + 1))

/-- The defaults of the plain entries that no register holds. -/
def odDefault (k : Nat) : List Byte :=
  match k with
  | 0x110001 => leBytes 1 32
  | 0x110002 => leBytes 4 500000
  | 0x110003 => leBytes 4 2000000
  | 0x111001 => leBytes 4 0
  | 0x111002 => leBytes 2 5170
  | 0x111003 => leBytes 4 0
  | 0x900006 => leBytes 2 200
  | _ => []

/-- The value of a plain entry that no register holds. -/
def State.odPlain (s : State) (k : Nat) : List Byte := (alook s.mgmt.od k).getD (odDefault k)

/-- A value the dictionary keeps for an entry. -/
def State.odNat (s : State) (k : Nat) : Nat := leNat (s.odPlain k)

/-- R394: a record of the event log. -/
def LogRec.bytes (r : LogRec) : List Byte :=
  leBytes 8 r.time ++ leBytes 2 r.index ++ leBytes 1 r.sub ++ leBytes 1 r.source ++ leBytes 4 r.code

/-- R394: EVENT_LOG, oldest record first, zeros behind. -/
def Mgmt.logBytes (m : Mgmt) : List Byte := ((m.log.reverse.map LogRec.bytes).flatten ++ zeros 512).take 512

/-- The 1,024 bytes of a calibration table. -/
def Bus.tableBytes (b : Bus) (at' : Nat → Nat) : List Byte :=
  ((List.range 32).map (fun e => ((List.range 8).map (fun i => leBytes 4 (b.reg (at' e + 4 * i)))).flatten)).flatten

/-- R408: LINK_MAP: this device's own ports, and the others' as last reported. -/
def State.linkMap (s : State) : List Byte :=
  leBytes 16 (lsum ((List.range 32).map (fun n =>
    (if n = s.bus.topo.own then s.linkBits else (alook s.kydor.links n).getD 0) % 16 * 2 ^ (4 * n))))

/-- R460: BIST_STATUS. -/
def Mgmt.bistStatus (m : Mgmt) : Nat := maskOf m.bistRunning + (if m.bistRunning = [] then 0 else 2 ^ 31)

/-- The value in force of entry `k` that lies in neither the SAFE table nor an image. -/
def State.odOwn (s : State) (k : Nat) : List Byte :=
  let b := s.bus
  match k with
  | 0x100000 => leBytes 4 0x9640
  | 0x100800 => deviceName b.variant
  | 0x100900 => textBytes [0x42, 0x31]
  | 0x100A00 => versionBytes Config.swVersion
  | 0x101801 => leBytes 4 (Config.identity 1).toNat
  | 0x101802 => leBytes 4 (Config.identity 2).toNat
  | 0x101803 => leBytes 4 (Config.identity 3).toNat
  | 0x101804 => leBytes 4 (Config.identity 4).toNat
  | 0x101901 => versionBytes Config.sdVersion
  | 0x200002 => leBytes 1 s.sd.state.code
  | 0x200003 => leBytes 1 (if s.sd.latched then s.sd.cause else 0)
  | 0x200004 => leBytes 1 s.plat.bootCode
  | 0x200101 => leBytes 4 s.mgmt.cfgSeq.toNat
  | 0x200102 => leBytes 1 s.mgmt.cfgSource
  | 0x200103 => leBytes 2 s.mgmt.cfgSkipped
  | 0x210001 => leBytes 2 (s.mgmt.powerLimit.getD b.variant.powerLimit)
  | 0x500001 => b.tableBytes activeAt
  | 0x500101 => b.tableBytes commAt
  | 0x600001 => leBytes 1 s.mgmt.modelBank
  | 0x600101 => s.mgmt.model0
  | 0x600102 => s.mgmt.model1
  | 0x602001 => leBytes 4 (b.reg (fseqB + 0x0C))
  | 0x602002 => leBytes 8 (b.reg64 (fseqB + 0x10))
  | 0x602003 => leBytes 4 (b.reg (fseqB + 0x2C))
  | 0x700002 => leBytes 4 (safeCrcOf s.mgmt.merged)
  | 0x700003 => leBytes 4 (safeCrcOf s.mgmt.safe)
  | 0x700004 => leBytes 2 s.mgmt.pending.length
  | 0x800001 => leBytes 4 b.unmapped
  | 0x801001 => leBytes 4 s.mgmt.cmdRefused
  | 0x801002 => leBytes 4 s.mgmt.sdoAborts
  | 0x801003 => leBytes 4 s.mgmt.safeConfirms
  | 0x801004 => leBytes 4 s.mgmt.cfgWrites
  | 0x802001 => s.mgmt.logBytes
  | 0x900007 => leBytes 4 s.sysCrc
  | 0x900101 => tab 32 (fun n => if 1 < b.topo.size ∧ n = b.topo.own then BitVec.ofNat 8 s.sd.state.code else (alook s.kydor.states n).getD 0)
  | 0x900102 => s.linkMap
  | 0xA00002 => leBytes 4 s.mgmt.bistStatus
  | _ =>
    if 0xA010 ≤ k / 256 ∧ k / 256 < 0xA01E then (alook s.mgmt.unitResults (k / 256 - 0xA010)).getD (zeros 24)
    else if 0xA040 ≤ k / 256 ∧ k / 256 < 0xA060 then (alook s.mgmt.stationResults (k / 256 - 0xA040)).getD (zeros 24)
    else s.odPlain k

/-- The value in force of any readable entry. -/
def State.odValue (s : State) (k : Nat) : List Byte :=
  match safeKind k with
  | some _ => safeValue s.mgmt.safe k
  | none =>
    match (if k % 256 = 0 then imageOf s.bus.variant (k / 256) else none) with
    | some m => s.imageRead m
    | none => s.odOwn k

/-- R388, R390, R408: the entry `idx:sub`, or the abort code where there is none. DEVICE_STATES and LINK_MAP are the manager's. -/
def State.odFind (s : State) (idx sub : Nat) : Nat ⊕ OdRow :=
  match odRow s.bus.variant (odKey idx sub) with
  | some r => if idx = 0x9001 ∧ s.bus.topo.own ≠ 0 then .inl 0x06020000 else .inr r
  | none =>
    if odTop s.bus.variant idx = 0 then .inl 0x06020000
    else if sub = 0 then .inr (.const, odNum 1)
    else .inl 0x06090011

/-- R396: Aedbaod, which serves entry `k`, cannot answer while the main dies are held in reset. -/
def State.relayDead (s : State) (k : Nat) : Bool := s.plat.mainHeld && !servedByJunesha k && !servedEarly k

/-- R387, R389: a read of `idx:sub`: its abort code, 0 where it is served, and the bytes. -/
def State.odRead (s : State) (idx sub : Nat) : Nat × List Byte :=
  let k := odKey idx sub
  match s.odFind idx sub with
  | .inl c => (c, [])
  | .inr r =>
    if s.early && !servedEarly k then (0x08000022, [])
    else if r.1 = .wo then (0x06010001, [])
    else if s.relayDead k then (0x08000020, [])
    else
      (0, if sub = 0 ∧ (odRow s.bus.variant k).isNone = true then leBytes 1 (odTop s.bus.variant idx) else s.odValue k)

-- Writes -------------------------------------------------------------------------------------------------------------------------------

/-- R390: the abort code of a value's length and limits, 0 where it passes. -/
def formCheck (t : OdForm) (v : List Byte) : Nat :=
  match t with
  | .num n lo hi hw =>
    if v.length ≠ n then 0x06070010
    else if hi < leNat v then (if hw then 0x06090031 else 0x06090030)
    else if leNat v < lo then 0x06090030
    else 0
  | .exact n => if v.length ≠ n then 0x06070010 else 0
  | .any => 0

/-- R387, R389: the abort code of a write by its access and the state, 0 where it is permitted. -/
def State.accessCheck (s : State) (a : OdAcc) : Nat :=
  match a with
  | .ro => 0x06010002
  | .const => 0x06010002
  | .wo => 0
  | .rw => if s.early then 0x08000022 else 0
  | .rwr => if s.calWritable then 0 else 0x08000022
  | .safe => if s.sd.state = .config then 0 else 0x08000022

/-- R391, R393: a value placed in the pending set. -/
def State.pend (s : State) (k : Nat) (v : List Byte) : State :=
  { s with mgmt := { s.mgmt with pending := aset s.mgmt.pending k v, pendingAt := s.now } }

/-- R444: the limit written; it takes effect at the next millisecond boundary. -/
def State.setPowerLimit (s : State) (w : Nat) : State :=
  { s with mgmt := { s.mgmt with powerLimit := some w }, plat := { s.plat with pendLimit := some w, pendAt := s.now } }

/-- R391: MODEL_IMAGE of bank `b`. -/
def State.setModel (s : State) (b : Nat) (v : List Byte) : State :=
  { s with mgmt := if b = 0 then { s.mgmt with model0 := v } else { s.mgmt with model1 := v } }

/-- R391: FIELD_BOOK: the bytes written to FB_BASE, and loaded (R124). -/
def State.putBook (s : State) (v : List Byte) : State :=
  let s := { s with mgmt := { s.mgmt with od := aset s.mgmt.od 0x601001 v } }
  if v = [] then s
  else
    let w := s.bus.put .mgt (s.bus.reg64 (fseqB + 0x18)) v
    { s with bus := w.1.startLoad }

/-- R136, R392: an entry of 0x6020 written: refused where it would change a register while RUN = 1. -/
def State.putSchedule (s : State) (off n v : Nat) : Nat × State :=
  let old := if n = 8 then s.bus.reg64 (fseqB + off) else s.bus.reg (fseqB + off)
  if s.bus.flag fseqB 0 then (if v = old then (0, s) else (0x08000022, s))
  else (0, s.onBus (fun b => if n = 8 then b.setReg64 (fseqB + off) v
    else b.setReg (fseqB + off) (if off = 0x2C then v &&& 0xFFFF07FF else v)))

/-- The effect of a permitted write of an RW or RWR entry, with the abort code of its further conditions. -/
def State.odPut (s : State) (k : Nat) (v : List Byte) (now : Nat) (boot : Bool) : Nat × State :=
  match (if k % 256 = 0 then imageOf s.bus.variant (k / 256) else none) with
  | some m => if s.imageRefused m v then (0x08000022, s) else (0, s.imageWrite m v now)
  | none =>
    match k with
    | 0x210001 => (0, s.setPowerLimit (leNat v))
    | 0x600101 => if s.mgmt.modelBank = 0 ∧ boot = false then (0x08000020, s) else (0, s.setModel 0 v)
    | 0x600102 => if s.mgmt.modelBank = 1 ∧ boot = false then (0x08000020, s) else (0, s.setModel 1 v)
    | 0x601001 => (0, s.putBook v)
    | 0x602001 => s.putSchedule 0x0C 4 (leNat v)
    | 0x602002 => s.putSchedule 0x10 8 (leNat v)
    | 0x602003 => s.putSchedule 0x2C 4 (leNat v)
    | _ => (0, { s with mgmt := { s.mgmt with od := aset s.mgmt.od k v } })

/-- R387 to R393: a write of an entry that is not WO: its abort code, and the state after. -/
def State.odStore (s : State) (idx sub : Nat) (v : List Byte) (now : Nat) : Nat × State :=
  let k := odKey idx sub
  match s.odFind idx sub with
  | .inl c => (c, s)
  | .inr (a, t) =>
    let c := s.accessCheck a
    if c ≠ 0 then (c, s)
    else if s.relayDead k then (0x08000020, s)
    else if a = .safe then (let d := s.safeWrite k v; if d ≠ 0 then (d, s) else (0, s.pend k v))
    else
      let d := formCheck t v
      if d ≠ 0 then (d, s) else s.odPut k v now false

-- Records of a configuration copy (R402, R403) -------------------------------------------------------------------------------------------

/-- R403: the keys of every RW, RWR and SAFE entry, ascending. -/
def copyKeys (v : Variant) : List Nat :=
  sortBy (fun a b => decide (a ≤ b))
    (((odTable v).filter (fun r => decide (r.2.1 = .rw ∨ r.2.1 = .rwr))).map (·.1) ++ safeTable.map (·.1)
      ++ (imageIndices v).map (· * 256))

/-- R403: every RW, RWR and SAFE entry at its value in force. -/
def State.copyRecords (s : State) : List (Nat × List Byte) := (copyKeys s.bus.variant).map (fun k => (k, s.odValue k))

/-- R401: the bytes that records take in a copy. -/
def recordsLength (l : List (Nat × List Byte)) : Nat := lsum (l.map (fun r => 8 + roundUp r.2.length 4))

/-- R402: one record of the winning copy applied. SAFE records are compared only; a record that names no entry, or holds a value
outside its limits, is skipped and counted. -/
def State.applyRecord (s : State) (now : Nat) (r : Nat × List Byte) : State :=
  let skip (s : State) : State := { s with mgmt := { s.mgmt with cfgSkipped := Nat.min (s.mgmt.cfgSkipped + 1) 0xFFFF } }
  match odRow s.bus.variant r.1 with
  | none => skip s
  | some (.safe, _) =>
    if r.2 = safeValue s.mgmt.safe r.1 then s else skip s
  | some (a, t) =>
    if (a = .rw ∨ a = .rwr) ∧ formCheck t r.2 = 0 then
      let q := s.odPut r.1 r.2 now true
      if q.1 = 0 then q.2 else skip s
    else skip s

end Sys2Proof.Machine
end

