-- ==== Sys2Proof/Machine/Boot.lean ====
section
/-! DEFINITION. Reset into BOOT and what survives it (R342, R450), firmware images (R404 to R406), and the choice and application of
the configuration copy and the calibration at boot (R318, R400 to R403). -/

namespace Sys2Proof.Machine

-- Images (R404, R405) ---------------------------------------------------------------------------------------------------------------

/-- R404: fields of an image header. -/
def imgVersion (b : List Byte) : Nat := fld b 4 4
def imgSec (b : List Byte) : Nat := fld b 8 2

/-- R404, R405: an image is accepted: header, anti-rollback version, and key, signature and hash. `sd`: by the Junesha die's ROM. -/
def imageAccepted (sd : Bool) (secMin : Nat) (b : List Byte) : Bool :=
  decide (512 ≤ b.length) && decide (fld b 0 4 = 0x31414551) && decide (fld b 0x0A 1 ≤ 3) && decide (fld b 0x0C 4 = b.length - 512)
    && decide (b.length ≤ 0x400000) && decide (secMin ≤ imgSec b) && Config.imageOk sd b

/-- R405: IOD0's boot ROM accepts the slot. -/
def ImgSlot.accepted (x : ImgSlot) (secMin : Nat) : Bool := (x.delivered && decide (secMin = 0)) || imageAccepted false secMin x.bytes

/-- R405: the slot that IOD0's boot ROM runs, none where it accepts neither. -/
def Mgmt.bootSlot (m : Mgmt) : Option Nat :=
  let a := m.slot0.accepted m.secMin
  let b := m.slot1.accepted m.secMin
  let later (x y : List Byte) : Bool :=
    decide (imgSec x < imgSec y) || (decide (imgSec x = imgSec y) && decide (imgVersion x < imgVersion y))
  if a && b then some (if later m.slot0.bytes m.slot1.bytes then 1 else 0)
  else if a then some 0 else if b then some 1 else none

/-- The image that Aedbaod runs from. -/
def Mgmt.runningImage (m : Mgmt) : List Byte := if m.running = 0 then m.slot0.bytes else m.slot1.bytes

/-- R405, R407: the Junesha die's second slot holds an image that its ROM does not accept; the first slot then runs. -/
def Mgmt.sdUpdateFailed (m : Mgmt) : Bool := decide (m.sdSlot1.bytes ≠ []) && !imageAccepted true m.secMin m.sdSlot1.bytes

-- Reset (R450) ----------------------------------------------------------------------------------------------------------------------

/-- R306: the commissioned table, which the Junesha die keeps in flash. -/
def keptRegs (l : RegFile) : RegFile := l.filter (fun r => decide (cleB + 0x3000 ≤ r.1 ∧ r.1 < cleB + 0x3400))

/-- R342, R393, R402, R450: the whole device reset into BOOT. Its flash parts and fuses keep their contents: the latch record, the
confirmed SAFE set, the commissioned table and the calibration record, the configuration copies and the image slots. -/
def State.bootReset (s : State) : State :=
  let r := State.resetOf s.bus.variant
  { r with
    bus := { r.bus with
      regs := keptRegs s.bus.regs, host0 := s.bus.host0, host1 := s.bus.host1, hostBad0 := s.bus.hostBad0, hostBad1 := s.bus.hostBad1,
      out := s.bus.out, free := s.bus.free,
      topo := topoOf s.mgmt.safe }
    sd := { r.sd with
      latched := decide (s.sd.flashCause ≠ 0), cause := s.sd.flashCause, flashCause := s.sd.flashCause, flashFrame := s.sd.flashFrame,
      causeLog := s.sd.causeLog, windowWrites := s.sd.windowWrites, calRec0 := s.sd.calRec0, calRec1 := s.sd.calRec1,
      safeCrc := s.sd.safeCrc }
    mgmt := { r.mgmt with
      safe := s.mgmt.safe, copyA := s.mgmt.copyA, copyB := s.mgmt.copyB, slot0 := s.mgmt.slot0, slot1 := s.mgmt.slot1,
      running := s.mgmt.running, sdSlot1 := s.mgmt.sdSlot1, secMin := s.mgmt.secMin }
    plat := { r.plat with
      sdPg := s.plat.sdPg, mainPg := s.plat.mainPg, testMode := s.plat.testMode, tapEnabled := s.plat.testMode,
      tapIr := s.plat.tapIr, boundary := s.plat.boundary, highz := s.plat.highz, pcieDown := s.plat.pcieDown,
      bootStep := 4, golden := s.plat.golden, pllOn := s.plat.mainPg && !s.plat.testMode,
      bootCode := if s.plat.testMode then 5 else if s.mgmt.sdUpdateFailed then 2 else 0 }
    pending := s.pending }

-- Configuration copies (R401 to R403) ----------------------------------------------------------------------------------------------

/-- R401: the fields of a copy's header. -/
def CfgCopy.length (c : CfgCopy) : Nat := fld c.bytes 0x0C 4
def CfgCopy.seq (c : CfgCopy) : Word := BitVec.ofNat 32 (fld c.bytes 8 4)
def CfgCopy.calSeq (c : CfgCopy) : Word := BitVec.ofNat 32 (fld c.bytes 0x14 4)
def CfgCopy.calCrc (c : CfgCopy) : Word := BitVec.ofNat 32 (fld c.bytes 0x18 4)

/-- R401: the CRC over header and records, the CRC field taken as 0. -/
def CfgCopy.crc (c : CfgCopy) : Nat := crc32c (c.bytes.take 0x10 ++ zeros 4 ++ sub c.bytes 0x14 (0x2C + c.length))

/-- R401: MAGIC, FORMAT, LENGTH, CRC and commit marker are correct. -/
def CfgCopy.valid (c : CfgCopy) : Bool :=
  decide (fld c.bytes 0 4 = 0x31464351) && decide (fld c.bytes 4 2 = 1) && decide (c.length ≤ 0x1FFFBC)
    && decide (c.crc = fld c.bytes 0x10 4) && decide (fld c.bytes (0x40 + c.length) 4 = c.seq.toNat ^^^ 0xFFFFFFFF)

/-- R401: a record: INDEX, SUB, a zero byte, LEN and the value, padded to a multiple of 4 bytes. -/
def recordBytes (r : Nat × List Byte) : List Byte :=
  leBytes 2 (r.1 / 256) ++ leBytes 1 (r.1 % 256) ++ zeros 1 ++ leBytes 4 r.2.length ++ r.2 ++ zeros (roundUp r.2.length 4 - r.2.length)

/-- R401: records one behind the other. -/
def recordsBytes (l : List (Nat × List Byte)) : List Byte := (l.map recordBytes).flatten

/-- R401: the records that bytes hold, at most `n`. -/
def readRecords : Nat → List Byte → List (Nat × List Byte)
  | 0, _ => []
  | n + 1, b =>
    if b.length < 8 then []
    else (odKey (fld b 0 2) (fld b 2 1), sub b 8 (fld b 4 4)) :: readRecords n (b.drop (8 + roundUp (fld b 4 4) 4))

/-- The key of ACTIVE_CAL, under which a copy holds its calibration (log entry 177). -/
abbrev calKey : Nat := 0x500001

/-- R401: every record of a copy. -/
def CfgCopy.all (c : CfgCopy) : List (Nat × List Byte) := readRecords c.length (sub c.bytes 0x40 c.length)

/-- R403: a copy's records, but for its calibration. -/
def CfgCopy.records (c : CfgCopy) : List (Nat × List Byte) := c.all.filter (fun r => decide (r.1 ≠ calKey))

/-- The bytes of words. -/
def wordBytes (l : List Word) : List Byte := (l.map (fun w => leBytes 4 w.toNat)).flatten

/-- R403: the 256 words of a copy's calibration. -/
def CfgCopy.cal (c : CfgCopy) : List Word :=
  let v := (alook c.all calKey).getD []
  tab 256 (fun i => BitVec.ofNat 32 (fld v (4 * i) 4))

/-- R401: the bytes of a header, `crc` in its CRC field. -/
def copyHead (seq calSeq : Word) (calCrc len crc : Nat) : List Byte :=
  leBytes 4 0x31464351 ++ leBytes 2 1 ++ zeros 2 ++ leBytes 4 seq.toNat ++ leBytes 4 len ++ leBytes 4 crc ++ leBytes 4 calSeq.toNat
    ++ leBytes 4 calCrc ++ zeros 36

/-- R401, R403: a copy as it is written: header, records, commit marker. -/
def CfgCopy.of (seq calSeq : Word) (cal : List Word) (recs : List (Nat × List Byte)) : CfgCopy :=
  let v := wordBytes cal
  let body := recordsBytes ((calKey, v) :: recs)
  let head := copyHead seq calSeq (crc32c v) body.length
  { bytes := head (crc32c (head 0 ++ body)) ++ body ++ leBytes 4 (seq.toNat ^^^ 0xFFFFFFFF) }

/-- R401: the state's entries fit into a copy, its calibration beside them. -/
def State.copyFits (s : State) : Bool := decide (1032 + recordsLength s.copyRecords ≤ 0x1FFFBC)

/-- R402: sequence number `a` is later than `b`. -/
def seqLater (a b : Word) : Bool := decide (a ≠ b) && decide ((a - b).toNat < 2 ^ 31)

/-- R402: the current copy: 0 A, 1 B, none for the defaults. -/
def Mgmt.winner (m : Mgmt) : Option Nat :=
  if m.copyA.valid && m.copyB.valid then some (if seqLater m.copyB.seq m.copyA.seq then 1 else 0)
  else if m.copyA.valid then some 0 else if m.copyB.valid then some 1 else none

/-- Copy `i`. -/
def Mgmt.copy (m : Mgmt) (i : Nat) : CfgCopy := if i = 0 then m.copyA else m.copyB

/-- R318: the copy's calibration equals the flash record: CAL_SEQ, and the CRC of the 32 entries. -/
def State.calMatches (s : State) (c : CfgCopy) : Bool := c.valid && decide (c.calSeq = s.sd.calNow.calSeq) && decide (c.calCrc = s.sd.calNow.crc)

/-- The active table set to 256 words. -/
def Bus.setActive (b : Bus) (l : List Word) : Bus := l.zipIdx.foldl (fun b x => b.setReg (activeAt 0 + 4 * x.2) x.1.toNat) b

/-- R318: the calibration chosen at boot: the winning copy's, the other's, or the commissioned table, logged. -/
def State.bootCal (s : State) : State :=
  let w := s.mgmt.copy (s.mgmt.winner.getD 0)
  let o := s.mgmt.copy (1 - s.mgmt.winner.getD 0)
  let s := s.onBus (·.setReg (cleB + 0x10) s.sd.calNow.calSeq.toNat)
  if s.calMatches w then s.onBus (·.setActive w.cal)
  else if s.calMatches o then s.onBus (·.setActive o.cal)
  else (s.onBus (·.revertCal)).logEvent 0x5000 1 4 0

/-- R402: some SAFE record of the copy differs from the value in force: the first such. -/
def State.safeMismatch (s : State) (l : List (Nat × List Byte)) : Option Nat :=
  (l.find? (fun r => (safeKind r.1).isSome && decide (r.2 ≠ safeValue s.mgmt.safe r.1))).map (·.1)

/-- R402, R403 COPY_SELECT: once after a reset, the current copy chosen and applied, as in CONFIG. -/
def State.applyConfig (s : State) (now : Nat) : State :=
  if s.mgmt.applied then s
  else
    let st := s.sd.state
    let s := { s.bootCal with mgmt := { s.bootCal.mgmt with applied := true } }.kydPorts
    match s.mgmt.winner with
    | none => { s with mgmt := { s.mgmt with cfgSource := 2, cfgSeq := 0 } }
    | some i =>
      let c := s.mgmt.copy i
      let s := { s with mgmt := { s.mgmt with cfgSource := i, cfgSeq := c.seq }, sd := { s.sd with state := .config } }
      let s := match s.safeMismatch c.records with
        | some k => s.logEvent (k / 256) (k % 256) 4 0x08000020
        | none => s
      let s := c.records.foldl (fun s r => s.applyRecord now r) s
      { s with sd := { s.sd with state := st } }

/-- R403: a copy written to the place that is not current, with a calibration; `ok`: it reads back valid and becomes current. -/
def State.writeCopy (s : State) (seq calSeq : Word) (cal : List Word) (ok : Bool) : Nat × State :=
  let good := ok && s.copyFits
  let i := if s.mgmt.cfgSource = 0 then 1 else 0
  let c : CfgCopy := if good then .of seq calSeq cal s.copyRecords else {}
  let m := { s.mgmt with cfgWrites := Nat.min (s.mgmt.cfgWrites + 1) 0xFFFFFFFF }
  let m := if i = 0 then { m with copyA := c } else { m with copyB := c }
  if good then (0, { s with mgmt := { m with cfgSource := i, cfgSeq := seq } }) else (0x06060000, { s with mgmt := m })

/-- The active table's words. -/
def Bus.activeWords (b : Bus) : List Word := tab 256 (fun i => BitVec.ofNat 32 (b.reg (activeAt 0 + 4 * i)))

/-- R403: SAVE's copy. -/
def State.saveCopy (s : State) (ok : Bool) : Nat × State :=
  s.writeCopy (s.mgmt.cfgSeq + 1) (BitVec.ofNat 32 (s.bus.reg (cleB + 0x10))) s.bus.activeWords ok

/-- R315, R403: the calibration copy of a granted update, whose CAL_SEQ is its SEQ. -/
def State.calCopy (s : State) : State :=
  let bs := s.bus.stage
  let cal : List Word := (chunks 4 256 (s.bus.calBytes (some bs))).map (fun w => BitVec.ofNat 32 (leNat w))
  let seq : Word := BitVec.ofNat 32 (fld bs 0 4)
  (s.writeCopy seq seq cal true).2

/-- R315 CAL_FLASH_WRITTEN: the flash record of step 3 is written. -/
def execCalFlashWritten (now : Nat) (s : State) : Host.Outcome State Fault Refusal :=
  .next (s.main fun s =>
    (s.at now).calWritten now)

end Sys2Proof.Machine
end

