-- ==== Sys2Proof/Machine/Device.lean ====
section
/-! DEFINITION. The state commands (R383 to R386, R395, R422), the injection sweep (R354 to R357), firmware image writes and the
anti-rollback fuse (R406). -/

namespace Sys2Proof.Machine

-- Conditions ---------------------------------------------------------------------------------------------------------------------

/-- R383: the states in which a command is legal; R407: in BOOT only RESET. -/
def legalIn (code : Nat) (d : Dev) : Bool :=
  match d with
  | .config => [1, 3, 7, 9, 10, 12].contains code
  | .commission => [2, 7, 9, 10, 11].contains code
  | .armed => [4, 5, 7, 10].contains code
  | .run => [6, 7].contains code
  | .safe => [7, 8, 10].contains code
  | .boot => code = 10
  | _ => false

/-- R336, R339, R363, R365, R383: the further conditions of ARM but for the sweep. -/
def State.armOk (s : State) : Bool :=
  let tf := s.bus.tf
  decide (s.mgmt.pending = []) && decide (s.safeNat 0x704001 ≠ 0x580 + s.odNat 0x110001) && decide (s.safeNat 0x704001 ≠ 0x600 + s.odNat 0x110001)
    && decide (s.marginFloor ≤ s.safeNat 0x702001) && decide (s.safeNat 0x704002 ≠ 0)
    && decide ((s.safeNat 0x701001 - 1) * tf + s.deadlineNs + 1000000 ≤ s.safeNat 0x701003 * 1000000)
    && s.sd.bookValid && decide (s.safeNat 0x740002 = s.sd.bookCrc.toNat) && decide (s.deadlineNs ≤ tf)

/-- R422: the conditions of START that a manager adds: every worker ARMED with its conditions met, every link UP, every SYS_CRC equal. -/
def State.systemOk (s : State) : Bool :=
  let t := s.bus.topo
  decide (s.linkBits &&& t.ports = t.ports) && (List.range t.size).all (fun n =>
    decide (n = 0) || (decide (alook s.kydor.states n = some 5) && s.kydor.startReady.contains n
      && decide ((alook s.kydor.links n).getD 0 &&& t.ports = t.ports) && decide (alook s.kydor.sysCrcs n = some (BitVec.ofNat 32 s.sysCrc))))

/-- R383, R345, R315: a command's further conditions, but for a flash write's outcome. -/
def State.conditionsMet (s : State) (code : Nat) : Bool :=
  match code with
  | 3 => s.armOk
  | 5 => s.startOk && (decide (s.bus.topo.size ≤ 1) || s.systemOk)
  | 8 => decide (s.sd.persists = [])
  | 9 => !s.bus.calBusy
  | 12 =>
    let m := if s.mgmt.modelBank = 0 then s.mgmt.model1 else s.mgmt.model0
    decide (4 < m.length) && decide (crc32c (m.take (m.length - 4)) = leNat (m.drop (m.length - 4)))
  | _ => true

/-- R383 to R387, R395, R407, R422: the abort code of a command from a source, 0 where it is accepted. -/
def State.commandCode (s : State) (code : Nat) (src : Source) : Nat :=
  if s.sd.state = .off ∨ s.sd.state = .selftest ∨ (s.sd.state = .boot ∧ s.plat.bootStopped = false) then 0x08000022
  else if code = 0 ∨ 12 < code then 0x06090030
  else if code ≠ 7 ∧ s.pathOk src = false then 0x08000020
  else if code ≠ 7 ∧ s.sd.arming.isSome = true then 0x08000020
  else if legalIn code s.sd.state = false then 0x08000022
  else if (code = 5 ∨ code = 6) ∧ s.isWorker = true then 0x08000020
  else if s.conditionsMet code = false then 0x08000020
  else 0

-- Effects ------------------------------------------------------------------------------------------------------------------------

/-- R354: ARM accepted: the sweep runs at once, or waits for the open frames. -/
def State.armBegin (s : State) (src : Source) : State :=
  { s with sd := { s.sd with testLatch := [], arming := some src, armAt := s.now, sweeping := decide (s.fseq.openFrames = []) } }

/-- R422: a system's START or STOP: sent to every worker, and due at the first frame whose window opens at least 2 ms later. -/
def State.systemMode (s : State) (run : Bool) : State :=
  let s := { s with kydor := { s.kydor with runAt := some (s.bus.firstFrame (s.now + 2000000), run) } }
  s.token (.kydTok (if run then .start else .stop))

/-- R345: recovery. -/
def State.recover (s : State) : State :=
  let s := { s with sd := { s.sd with latched := false, cause := 0, flashCause := 0, history := [], invalidRun := 0 },
                    kydor := { s.kydor with latchedSystem := false } }
  ((s.setDev .config).sendSafety 3).applyConfig s.now

/-- R306: the active table copied into the commissioned table. -/
def State.calCommission (s : State) : State :=
  { s.onBus (fun b => (List.range 32).foldl (fun b e => b.setXform (commAt e) (b.xform (activeAt e))) b) with
    calib := { s.calib with changed := false } }

/-- R383, R342: SAFE_STOP; in SAFE it changes nothing. -/
def State.safeStop (s : State) : State := if s.sd.state = .safe then s else s.enterSafe 9 0 s.sd.lastFrame

/-- R383: what an accepted command does, and the abort code of a copy write that fails. -/
def State.commandEffect (s : State) (code : Nat) (src : Source) (flashOk : Bool) : Nat × State :=
  match code with
  | 1 => (0, s.setDev .commission)
  | 2 => (0, s.setDev .config)
  | 3 => (0, s.armBegin src)
  | 4 => (0, s.setDev .config)
  | 5 => (0, if 1 < s.bus.topo.size then s.systemMode true else s.enterRun)
  | 6 => (0, if 1 < s.bus.topo.size then s.systemMode false else s.enterArmed)
  | 7 => (0, s.safeStop)
  | 8 => (0, s.recover)
  | 9 => s.saveCopy flashOk
  | 10 => (0, s.bootReset)
  | 11 => (0, s.calCommission)
  | _ => (0, { s with mgmt := { s.mgmt with modelBank := 1 - s.mgmt.modelBank } })

/-- R384, R394: a command answered: logged with its code or abort code, and a refusal counted. -/
def State.commandLog (s : State) (code : Nat) (src : Source) (abort : Nat) : State :=
  let s := if abort = 0 then s else { s with mgmt := { s.mgmt with cmdRefused := Nat.min (s.mgmt.cmdRefused + 1) 0xFFFFFFFF } }
  s.logRequest 0x2000 1 src abort code

/-- R383 to R385: command `code` from a source: its abort code and the state after. ARM is logged when it has completed. -/
def State.command (s : State) (code : Nat) (src : Source) (flashOk : Bool) : Nat × State :=
  let c := s.commandCode code src
  if c ≠ 0 then (c, s.commandLog code src c)
  else if code = 10 then (0, (s.commandLog code src 0).bootReset)
  else
    let q := s.commandEffect code src flashOk
    (q.1, if code = 3 then q.2 else q.2.commandLog code src q.1)

/-- R383 COMMISSION. -/
def execCommission (src : Source) (s : State) : Host.Outcome State Fault Refusal := .next (s.onSd fun s => (s.command 1 src true).2)

/-- R383, R319, R205 END_COMMISSION. -/
def execEndCommission (src : Source) (s : State) : Host.Outcome State Fault Refusal := .next (s.onSd fun s => (s.command 2 src true).2)

/-- R383 ARM. -/
def execArm (src : Source) (now : Nat) (s : State) : Host.Outcome State Fault Refusal :=
  .next (s.onSd fun s => ((s.at now).command 3 src true).2)

/-- R431: a HELD link of a device that comes to CONFIG or COMMISSION trains again by itself. -/
def State.linksRetrain (s : State) : State :=
  if s.calWritable then
    s.onBus (fun b => (List.range 4).foldl (fun b k => if b.field (kydB k + 4) 1 0 = 3 ∧ (k < 2 ∨ b.variant.isX2 = true) then
      b.setField (kydB k + 4) 1 0 1 else b) b)
  else s

/-- R383 DISARM. -/
def execDisarm (src : Source) (s : State) : Host.Outcome State Fault Refusal :=
  .next (s.onSd fun s => (s.command 4 src true).2.linksRetrain)

/-- R383, R422 START. -/
def execStart (src : Source) (s : State) : Host.Outcome State Fault Refusal := .next (s.onSd fun s => (s.command 5 src true).2)

/-- R383, R422 STOP. -/
def execStop (src : Source) (s : State) : Host.Outcome State Fault Refusal := .next (s.onSd fun s => (s.command 6 src true).2)

/-- R383, R385 SAFE_STOP. -/
def execSafeStop (src : Source) (s : State) : Host.Outcome State Fault Refusal := .next (s.onSd fun s => (s.command 7 src true).2)

/-- R345 RECOVER. -/
def runRecover (src : Source) (s : State) : Host.Outcome State Fault Refusal :=
  .next (s.onSd fun s => (s.command 8 src true).2.linksRetrain)

/-- R403 SAVE; `flashOk`: the copy reads back valid. -/
def execSave (src : Source) (flashOk : Bool) (s : State) : Host.Outcome State Fault Refusal :=
  .next (s.onSd fun s => (s.command 9 src flashOk).2)

/-- R450 RESET. It also ends the hold of a lockstep mismatch or a Junesha clock failure. -/
def execReset (src : Source) (s : State) : Host.Outcome State Fault Refusal :=
  .next (if s.sd.railLost then s else if s.sd.halted then s.bootReset else (s.command 10 src true).2)

/-- R306 CAL_COMMISSION. -/
def execCalCommission (src : Source) (s : State) : Host.Outcome State Fault Refusal := .next (s.onSd fun s => (s.command 11 src true).2)

/-- R383 MODEL_SWITCH. -/
def execModelSwitch (src : Source) (s : State) : Host.Outcome State Fault Refusal := .next (s.onSd fun s => (s.command 12 src true).2)

-- The injection sweep (R354 to R357) ----------------------------------------------------------------------------------------------

/-- R402, R451: step 9 of start-up over: the configuration is applied. -/
def State.bootStep10 (s : State) (now : Nat) : State := { s with plat := { s.plat with bootStep := 10 } }.applyConfig now

/-- R357: the sweep fails with the given MECH_CAUSE bits, which record its rows even where another cause stays latched. -/
def State.sweepFails (s : State) (detail now : Nat) : State :=
  let boot := s.bootSweep
  let s := s.enterSafe 6 (0x01000000 + detail) s.sd.lastFrame
  let s := { s with sd := { s.sd with mech := BitVec.ofNat 32 (0x01000000 + detail) } }
  if boot then s.bootStep10 now else s

/-- R342, R354, R402: the sweep passes: ARMED, or at start-up CONFIG, or SAFE with a latched record. -/
def State.sweepPasses (s : State) (now : Nat) : State :=
  if s.bootSweep then
    let s := s.bootStep10 now
    if s.sd.state = .selftest then s.setDev (if s.sd.latched then .safe else .config) else s
  else
    match s.sd.arming with
    | none => s
    | some src =>
      let s := { s with sd := { s.sd with arming := none, sweeping := false } }.enterArmed
      (s.commandLog 3 src 0).armAnswer 0

/-- R355 row 0: a field-occupied unmasked cell with no box disagrees, the same cell with a covering box agrees. -/
def State.sweepCover (s : State) : Bool :=
  let m := s.safeNat 0x702001
  let box : CovBox := { cx := 200, cy := 200, cz := 0, l := 100, w := 100, h := 100, c := 2 ^ 30, s := 0 }
  missedBy m false [] 256 256 {} && !missedBy m false [box] 256 256 {}

/-- R355 row 1: a single-bit error in a granule is corrected and counted, a double-bit one reads as poisoned: in a slice, the commons,
the history cache and the intake SRAM. -/
def State.sweepEcc (s : State) : Bool :=
  let clean : Bus := { s.bus with poison := [] }
  let zero (b : Bus) (a : Nat) : Bus := b.setReg a 0
  [0x0, 0x08000000].all (fun a =>
      decide (((zero clean (umUnit a + 0x8220)).umUpset (a / 8) false).reg (umUnit a + 0x8220) = 1))
    && decide (((zero clean (hcB + 0x414)).hbmUpset (0x100000000 / 8) false).reg (hcB + 0x414) = 1)
    && [0x0, 0x08000000, 0x10000000, 0x100000000].all (fun a => (clean.upset (.memory (a / 8) true)).poisoned a 8)

/-- R355 row 5: too short, too long, late start and END without START, on a test entry of 2 to 4 ns that starts at t_ref at the latest. -/
def sweepTiming : Bool :=
  let e : MonEntry := { min := 2, max := 4, latest := some 0, en := true }
  let r : MonRec := { mon := 0, frame := 0 }
  e.short 1 false && e.long 4 && e.lateStart 0 0 none && r.start.isNone

/-- R355 row 6: each test of R366 and R367 fed a repeated value. -/
def sweepFrozen : Bool :=
  let x : SensorSeen := { sensor := 0, copies := 1 }
  let c (y : SensorSeen) : CheckFrame := { frame := 1, seen := [y] }
  let fed (y z : SensorSeen) : Bool := frozenSensor 1 (c y) (c z) 0
  fed { x with copies := 0, raw := [1] } x
    && fed { x with seq := some 1, raw := [1] } { x with seq := some 1 }
    && fed { x with time := some 1, raw := [1] } { x with time := some 1 }
    && fed { x with raw := [1] } { x with raw := [1] }
    && camRepeats (0, 1, 1, 1, true) (0, 1, 0, 0, true) && camRepeats (0, 1, 1, 1, true) (0, 0, 1, 0, true)
    && camRepeats (0, 1, 1, 1, true) (0, 0, 0, 1, true)

/-- R355 row 7: the reason of a test frame whose deadline has passed with no end mark. -/
def sweepDeadline : Bool := decide (firstReason (judgeReasons false none true true false false true) = 0x0202)

/-- R355 row 9: each guard refuses a test batch whose TOKEN differs from the held verdict's. -/
def State.sweepGuards (s : State) : Bool :=
  (ioDies s.bus.variant).all (fun d =>
    let b := (((s.bus.setReg (guardAt d 0) 0).setReg (guardAt d 0 + 4) 0).setReg (guardAt d 0 + 8) 1)
    !b.guardOk d (patch (zeros 64) 0x30 (leBytes 4 2)))

/-- R355: whether the mechanism of row `r` responds as required. The mechanisms of rows 2 and 8 lie in the lockstep processors and the
stations' scoreboards; only the sweep's outcome shows them. -/
def State.sweepRow (s : State) (r : Nat) : Bool :=
  match r with
  | 0 => s.sweepCover
  | 1 => s.sweepEcc
  | 3 => clockTrips 50000 && clockTrips (-50000)
  | 4 => voltTrips 4
  | 5 => sweepTiming
  | 6 => sweepFrozen
  | 7 => sweepDeadline
  | 9 => s.sweepGuards
  | 10 => readbackTrips 20001
  | _ => true

/-- R355: the sweep's rows in order, each with whether it responds; `failing` names rows whose hardware is faulty. -/
def State.sweepRows (s : State) (failing : List (Fin 11)) : List (Nat × Bool) :=
  (List.range 11).map (fun r => (r, s.sweepRow r && !(failing.any (fun x => decide (x.val = r)))))

/-- R354 INJECTION_SWEEP: the sweep has run. What tripped is in the test latch, and the injected events in the injection log alone
(R356). A real trip during start-up's sweep has failed it. -/
def runInjectionSweep (failing : List (Fin 11)) (now : Nat) (s : State) : Host.Outcome State Fault Refusal :=
  .next (s.onSd fun s =>
    if s.inSweep then
      let rows := s.sweepRows failing
      let bad := rows.filterMap (fun (r : Nat × Bool) => if r.2 then none else some r.1)
      let s := { s.at now with sd := { s.sd with
        injLog := rows, testLatch := rows.filterMap (fun (r : Nat × Bool) => if r.2 then some r.1 else none) } }
      if bad ≠ [] then s.sweepFails (maskOf bad) now
      else if s.bootSweep && s.sd.sweepTrip then s.bootStep10 now
      else s.sweepPasses now
    else s)

/-- R357 SWEEP_OVERRUN: the sweep has taken `elapsed` ns. -/
def runSweepOverrun (elapsed : Nat) (s : State) : Host.Outcome State Fault Refusal :=
  .next (s.onSd fun s => if s.inSweep && decide (150000000 < elapsed) then s.sweepFails (2 ^ 11) s.now else s)

/-- R354 ARM_FRAME_WAIT_TIMEOUT. -/
def execArmFrameWaitTimeout (now : Nat) (s : State) : Host.Outcome State Fault Refusal :=
  .next (s.onSd fun s =>
    if s.sd.arming.isSome && !s.sd.sweeping && decide (s.fseq.openFrames ≠ []) && decide (s.sd.armAt + 200000000 ≤ now) then
      (s.at now).endCommand
    else s)

-- Firmware images (R406) ------------------------------------------------------------------------------------------------------------

/-- R406: the abort code of an image write, 0 where it is verified. -/
def State.imageCode (s : State) (sd : Bool) (img : List Byte) : Nat :=
  if s.sd.state ≠ .config then 0x08000022
  else if sd = false ∧ s.plat.mainHeld = true then 0x08000020
  else if imageAccepted sd s.mgmt.secMin img = false then 0x08000020
  else 0

/-- R406: an image written to the slot that does not run. -/
def State.writeImage (s : State) (sd : Bool) (img : List Byte) : State :=
  { s with mgmt :=
    if sd then { s.mgmt with sdSlot1 := { bytes := img } }
    else if s.mgmt.running = 0 then { s.mgmt with slot1 := { bytes := img } }
    else { s.mgmt with slot0 := { bytes := img } } }

/-- R406: 0x1F50:01 or :02 written, with its abort code. -/
def State.putImage (s : State) (sd : Bool) (src : Source) (img : List Byte) : Nat × State :=
  let c := s.imageCode sd img
  (c, (if c = 0 then s.writeImage sd img else s).logRequest 0x1F50 (if sd then 2 else 1) src c 0)

/-- R406 AED_IMAGE. -/
def execAedImage (src : Source) (img : List Byte) (s : State) : Host.Outcome State Fault Refusal :=
  .next (s.onSd fun s => (s.putImage false src img).2)

/-- R406 SD_IMAGE. -/
def execSdImage (src : Source) (img : List Byte) (s : State) : Host.Outcome State Fault Refusal :=
  .next (s.onSd fun s => (s.putImage true src img).2)

/-- R406: 0xA0F0:01 written, with its abort code: the fused minimum rises to the running image's version, in CONFIG. -/
def State.raiseSec (s : State) (src : Source) : Nat × State :=
  let c := if s.sd.state = .config then (if s.plat.mainHeld then 0x08000020 else 0) else 0x08000022
  let t := if c = 0 then { s with mgmt := { s.mgmt with secMin := Nat.max s.mgmt.secMin (imgSec s.mgmt.runningImage) } } else s
  (c, t.logRequest 0xA0F0 1 src c 0)

/-- R406 SEC_VERSION_RAISE. -/
def execSecVersionRaise (src : Source) (s : State) : Host.Outcome State Fault Refusal := .next (s.onSd fun s => (s.raiseSec src).2)

end Sys2Proof.Machine
end

