-- ==== Sys2Proof/Machine/Bist.lean ====
section
/-! DEFINITION. Boundary scan (R455, R456) and field BIST (R463 to R465). The dies stand in the order of the chain: 0 SD, 1 IOD0,
2 IOD1, 3 CD. -/

namespace Sys2Proof.Machine

-- Boundary scan (R455, R456) ----------------------------------------------------------------------------------------------------------

/-- The TAP instructions of R455, numbered by the model. -/
inductive TapOp where
  | bypass | idcode | sample | extest | highz | clamp | extestPulse | extestTrain
  deriving DecidableEq, Repr

/-- The number under which `Plat.tapIr` holds an instruction; a TAP that is not listed is at IDCODE, as in Test-Logic-Reset. -/
def TapOp.code : TapOp → Nat
  | .bypass => 0
  | .idcode => 1
  | .sample => 2
  | .extest => 3
  | .highz => 4
  | .clamp => 5
  | .extestPulse => 6
  | .extestTrain => 7

/-- R455: the die's IDCODE. -/
def idcodeOf (die : Fin 4) : Nat := if die.val = 0 then 0x29643B47 else if die.val = 3 then 0x29641B47 else 0x29642B47

/-- The `n` low bits of `v`, the first shifted out first. -/
def shiftBits (n v : Nat) : List Bool := tab n (fun i => bit v i)

/-- R455, R456: the die is in the chain, and the TAPs are enabled. -/
def State.tapOn (s : State) (die : Fin 4) : Bool := s.plat.tapEnabled && (s.bus.variant.isX2 || decide (die.val ≠ 2))

/-- R455: a TAP instruction of a die: it becomes current, the die's outputs float under HIGHZ alone, and `bits` are shifted out. With the
TAPs disabled nothing happens and TDO is high-impedance (R456). -/
def State.tap (s : State) (die : Fin 4) (op : TapOp) (bits : List Bool) : State :=
  if s.tapOn die then
    { s.emit (.tdo bits) with plat := { s.plat with
      tapIr := aset s.plat.tapIr die.val op.code
      highz := if op = .highz then nins s.plat.highz die.val else ndel s.plat.highz die.val } }
  else s

/-- R455 BYPASS: one stage, cleared at capture, between TDI and TDO. -/
def execBypass (die : Fin 4) (tdi : List Bool) (s : State) : Host.Outcome State Fault Refusal :=
  .next (s.tap die .bypass ((false :: tdi).take tdi.length))

/-- R455 IDCODE, least significant bit first. -/
def execIdcode (die : Fin 4) (s : State) : Host.Outcome State Fault Refusal := .next (s.tap die .idcode (shiftBits 32 (idcodeOf die)))

/-- R455 SAMPLE/PRELOAD: the pins are sampled and shifted out; the boundary cells hold what is shifted in. -/
def execSamplePreload (die : Fin 4) (pins preload : List Bool) (s : State) : Host.Outcome State Fault Refusal :=
  .next (let t := s.tap die .sample pins
    if s.tapOn die then { t with plat := { t.plat with boundary := aset t.plat.boundary die.val preload } } else t)

/-- R455 EXTEST: the boundary cells drive the outputs, and what they capture is shifted out. -/
def execExtest (die : Fin 4) (pins : List Bool) (s : State) : Host.Outcome State Fault Refusal := .next (s.tap die .extest pins)

/-- R455 HIGHZ: the die's outputs float; bypass is selected. -/
def execHighz (die : Fin 4) (s : State) : Host.Outcome State Fault Refusal := .next (s.tap die .highz [])

/-- R455 CLAMP: the outputs hold the boundary cells' values; bypass is selected. -/
def execClamp (die : Fin 4) (s : State) : Host.Outcome State Fault Refusal := .next (s.tap die .clamp [])

/-- R455 EXTEST_PULSE on the AC-coupled lanes: what the lanes' test receivers captured is shifted out. -/
def execExtestPulse (die : Fin 4) (lanes : List Bool) (s : State) : Host.Outcome State Fault Refusal := .next (s.tap die .extestPulse lanes)

/-- R455 EXTEST_TRAIN on the AC-coupled lanes. -/
def execExtestTrain (die : Fin 4) (lanes : List Bool) (s : State) : Host.Outcome State Fault Refusal := .next (s.tap die .extestTrain lanes)

/-- R455 TRST_N: every TAP to Test-Logic-Reset, whose instruction is IDCODE; with the TAPs disabled they are there already (R456). -/
def execTrstN (s : State) : Host.Outcome State Fault Refusal := .next { s with plat := { s.plat with tapIr := [], highz := [] } }

-- Field BIST (R463 to R465) -------------------------------------------------------------------------------------------------------------

/-- R457, R461: unit `u` is one of the variant's. -/
def bistUnit (v : Variant) (u : Nat) : Bool :=
  decide (u < 6) || (decide (u = 6) && v.isX2) || (decide (8 ≤ u) && decide (u < 8 + v.stacks))

/-- R463: a bit of `w` is set for an absent unit, or reserved. -/
def bistBad (v : Variant) (w : Nat) : Bool := (List.range 32).any (fun u => bit w u && !bistUnit v u)

/-- R463: the abort code of a write of BIST_START, 0 where it is accepted. -/
def State.bistCode (s : State) (w : Nat) : Nat :=
  if s.calWritable = false then 0x08000022
  else if s.bus.flag fseqB 0 = true ∨ s.fseq.openFrames ≠ [] ∨ s.mgmt.bistRunning ≠ [] then 0x08000020
  else if s.plat.mainHeld then 0x08000020
  else if bistBad s.bus.variant w then 0x06090030
  else 0

/-- R463: BIST_START written, with its abort code. -/
def State.putBist (s : State) (src : Source) (w : Nat) : Nat × State :=
  let c := s.bistCode w
  (c, (if c = 0 then { s with mgmt := { s.mgmt with bistRunning := (List.range 14).filter (bit w) } } else s).logRequest 0xA000 1 src c 0)

/-- R463 BIST_START. -/
def execBistStart (src : Source) (v : Word) (s : State) : Host.Outcome State Fault Refusal := .next (s.onSd fun s => (s.putBist src v.toNat).2)

/-- R464: a quadrant's pass counts as a passing spare test of its 8 stations. -/
def State.quadrantPass (s : State) (u now : Nat) : State :=
  { s with sd := { s.sd with stationPass := s.sd.stationPass.mapIdx (fun i t => if i / 8 = u then now else t) } }

/-- R464: running unit `u` has completed with `r`. -/
def State.bistDone (s : State) (u : Nat) (r : BistResult) (now : Nat) : State :=
  let pass := s.bistPassed u r
  let s := { s with mgmt := { s.mgmt with
    bistRunning := s.mgmt.bistRunning.filter (fun x => decide (x ≠ u))
    unitResults := aset s.mgmt.unitResults u (bistRecord pass r false (decide (u < 8))) } }
  let s := s.bistWipe u
  if pass = true ∧ u < 4 then s.quadrantPass u now else s

/-- R464 BIST_UNIT_DONE. -/
def execBistUnitDone (u : Fin 14) (r : BistResult) (now : Nat) (s : State) : Host.Outcome State Fault Refusal :=
  .next (if s.mgmt.bistRunning.contains u.val then (s.at now).bistDone u.val r now else s)

end Sys2Proof.Machine
end

