-- ==== Sys2Proof/Machine/Transports.lean ====
section
/-! DEFINITION. Requests to the object dictionary and the transports that carry them (R383, R389, R394 to R399): SDO on both CAN FD
controllers, QMP over UDP, and the PCIe mailbox. -/

namespace Sys2Proof.Machine

-- Requests (R383, R389, R394) -----------------------------------------------------------------------------------------------------------

/-- A write of a WO entry, which performs its action and logs itself: the abort code, and the state after; none where the entry is not
WO. -/
def State.odAct (s : State) (idx sub : Nat) (v : List Byte) (src : Source) : Option (Nat × State) :=
  let short (n : Nat) (t : Nat × State) : Nat × State :=
    if v.length = n then t else (0x06070010, s.logRequest idx sub src 0x06070010 0)
  match odKey idx sub with
  | 0x200001 => some (short 1 (s.command (leNat v) src (Config.flashOk s.mgmt.cfgWrites)))
  | 0x700001 => some (short 4 (s.confirm src (leNat v)))
  | 0x1F5001 => some (s.putImage false src v)
  | 0x1F5002 => some (s.putImage true src v)
  | 0xA00001 => some (short 4 (s.putBist src (leNat v)))
  | 0xA0F001 => some (s.raiseSec src)
  | _ => none

/-- A write request: its abort code, and the state after, logged (R394). -/
def State.odWrite (s : State) (idx sub : Nat) (v : List Byte) (src : Source) (now : Nat) : Nat × State :=
  match s.odAct idx sub v src with
  | some r => r
  | none =>
    let r := s.odStore idx sub v now
    (r.1, r.2.logRequest idx sub src r.1 0)

/-- A read request: its abort code, the bytes, and the state after, logged (R394). -/
def State.odFetch (s : State) (idx sub : Nat) (src : Source) : Nat × List Byte × State :=
  let r := s.odRead idx sub
  (r.1, r.2, s.logRequest idx sub src r.1 0)

/-- R383: the write just served was an ARM that has not completed: the answer waits for it. -/
def State.armWaits (s : State) (idx sub : Nat) (v : List Byte) (code : Nat) : Bool :=
  decide (odKey idx sub = 0x200001 ∧ leNat v = 3 ∧ code = 0) && s.sd.arming.isSome

/-- R444 POWER_LIMIT: entry 0x2100:01 written. -/
def execPowerLimit (src : Source) (v : BitVec 16) (s : State) : Host.Outcome State Fault Refusal :=
  .next (s.onSd fun s => (s.odWrite 0x2100 1 (leBytes 2 v.toNat) src s.now).2)

-- SDO (R396, CiA 301) ---------------------------------------------------------------------------------------------------------------------

/-- The transfer of controller `c`. -/
def Mgmt.sdo (m : Mgmt) (c : Fin 2) : Option SdoXfer := if c.val = 0 then m.sdo0 else m.sdo1

/-- The transfer of controller `c` set. -/
def State.setSdo (s : State) (c : Fin 2) (x : Option SdoXfer) : State :=
  { s with mgmt := if c.val = 0 then { s.mgmt with sdo0 := x } else { s.mgmt with sdo1 := x } }

/-- The start of a response: its command byte and the entry. -/
def sdoHead (b idx sub : Nat) : List Byte := leBytes 1 b ++ leBytes 2 idx ++ leBytes 1 sub

/-- R390, R394, R396: the server aborts with a protocol error: logged, the transfer dropped, the client told. -/
def State.sdoFail (s : State) (c : Fin 2) (idx sub code : Nat) : State :=
  ((s.setSdo c none).logRequest idx sub (.can c) code 0).sdoAbortFrame c.val idx sub code

/-- The controller whose ARM awaits its completion. -/
def Mgmt.armOn (m : Mgmt) (c : Fin 2) : Bool :=
  match m.armReply with
  | some (.sdo d _) => decide (d = c)
  | _ => false

/-- R396: an initiate request ends what the controller was serving, a segmented transfer or an ARM whose answer is awaited. -/
def State.sdoFree (s : State) (c : Fin 2) : State :=
  if s.mgmt.armOn c then { s with mgmt := { s.mgmt with armReply := none } }.sdoFail c 0x2000 1 0x05040001
  else match s.mgmt.sdo c with
    | some x => s.sdoFail c x.index x.sub 0x05040001
    | none => s

/-- A complete value written for the client of controller `c`, answered with `done` or an abort; ARM is answered when it completes. -/
def State.sdoWrite (s : State) (c : Fin 2) (idx sub : Nat) (v done : List Byte) (now : Nat) : State :=
  let r := (s.setSdo c none).odWrite idx sub v (.can c) now
  if r.2.armWaits idx sub v r.1 then { r.2 with mgmt := { r.2.mgmt with armReply := some (.sdo c done) } }
  else if r.1 = 0 then r.2.sdoSend c.val done
  else r.2.sdoAbortFrame c.val idx sub r.1

/-- Initiate download: expedited, or the start of a segmented transfer. -/
def State.sdoDown (s : State) (c : Fin 2) (req : List Byte) (now : Nat) : State :=
  let b := fld req 0 1
  let idx := fld req 1 2
  let sb := fld req 3 1
  let done := sdoHead 0x60 idx sb
  if bit b 1 then s.sdoWrite c idx sb (sub req 4 (4 - (if bit b 0 then bits b 3 2 else 0))) done now
  else
    let x : SdoXfer := { index := idx, sub := sb, down := true, data := [], size := if bit b 0 then fld req 4 4 + 1 else 0, last := now }
    (s.setSdo c (some x)).sdoSend c.val done

/-- A download segment. A total that differs from the announced size does not match the type (R390). -/
def State.sdoDownSeg (s : State) (c : Fin 2) (x : SdoXfer) (req : List Byte) (now : Nat) : State :=
  let b := fld req 0 1
  if bit b 4 ≠ x.toggle then s.sdoFail c x.index x.sub 0x05030000
  else
    let data := x.data ++ sub req 1 (7 - bits b 3 1)
    let done := leBytes 1 (0x20 + 16 * b2n x.toggle)
    if bit b 0 = false then (s.setSdo c (some { x with data := data, toggle := !x.toggle, last := now })).sdoSend c.val done
    else if x.size ≠ 0 ∧ x.size ≠ data.length + 1 then s.sdoFail c x.index x.sub 0x06070010
    else s.sdoWrite c x.index x.sub data done now

/-- Initiate upload: 1 to 4 bytes expedited, any other length in segments. -/
def State.sdoUp (s : State) (c : Fin 2) (req : List Byte) (now : Nat) : State :=
  let idx := fld req 1 2
  let sb := fld req 3 1
  let r := s.odFetch idx sb (.can c)
  let v := r.2.1
  if r.1 ≠ 0 then r.2.2.sdoAbortFrame c.val idx sb r.1
  else if 0 < v.length ∧ v.length ≤ 4 then r.2.2.sdoSend c.val (sdoHead (0x43 + 4 * (4 - v.length)) idx sb ++ v)
  else
    let x : SdoXfer := { index := idx, sub := sb, down := false, data := v, last := now }
    (r.2.2.setSdo c (some x)).sdoSend c.val (sdoHead 0x41 idx sb ++ leBytes 4 v.length)

/-- An upload segment. -/
def State.sdoUpSeg (s : State) (c : Fin 2) (x : SdoXfer) (req : List Byte) (now : Nat) : State :=
  if bit (fld req 0 1) 4 ≠ x.toggle then s.sdoFail c x.index x.sub 0x05030000
  else
    let part := x.data.take 7
    let rest := x.data.drop 7
    let t := s.sdoSend c.val (leBytes 1 (16 * b2n x.toggle + 2 * (7 - part.length) + b2n (decide (rest = []))) ++ part)
    t.setSdo c (if rest = [] then none else some { x with data := rest, toggle := !x.toggle, last := now })

/-- R396: a transfer whose next segment has not come within 1,000 ms is aborted before anything that comes later is served. -/
def State.sdoLate (s : State) (c : Fin 2) (now : Nat) : State :=
  match s.mgmt.sdo c with
  | some x => if x.last + 1000000000 < now then s.sdoFail c x.index x.sub 0x05040000 else s
  | none => s

/-- A request frame of 8 bytes, by its command specifier. Block transfer, the unused specifier 7 and a segment of no transfer are
refused with 0x0504_0001. -/
def State.sdoServe (s : State) (c : Fin 2) (req : List Byte) (now : Nat) : State :=
  match bits (fld req 0 1) 7 5, s.mgmt.sdo c with
  | 0, some x => if x.down then s.sdoDownSeg c x req now else s.sdoFail c x.index x.sub 0x05040001
  | 1, _ => (s.sdoFree c).sdoDown c req now
  | 2, _ => (s.sdoFree c).sdoUp c req now
  | 3, some x => if x.down then s.sdoFail c x.index x.sub 0x05040001 else s.sdoUpSeg c x req now
  | 4, _ => if s.mgmt.armOn c then { s with mgmt := { s.mgmt with armReply := none } } else s.setSdo c none
  | 5, _ => (s.sdoFree c).sdoFail c (fld req 1 2) (fld req 3 1) 0x05040001
  | 6, _ => (s.sdoFree c).sdoFail c (fld req 1 2) (fld req 3 1) 0x05040001
  | _, some x => s.sdoFail c x.index x.sub 0x05040001
  | _, none => s.sdoFail c 0 0 0x05040001

/-- R396: an SDO request frame received by controller `c`. One that has not 8 bytes is no SDO. A halted Junesha die takes only RESET
(R450). -/
def State.sdoFrame (s : State) (c : Fin 2) (req : List Byte) (now : Nat) : State :=
  if req.length ≠ 8 ∨ s.sd.railLost = true then s
  else if s.sd.halted then (if req.take 5 = textBytes [0x2F, 0x00, 0x20, 0x01, 0x0A] then s.bootReset else s)
  else ((s.at now).sdoLate c now).sdoServe c req now

/-- R396 SDO_DOWNLOAD. -/
def runSdoDownload (c : Fin 2) (req : List Byte) (now : Nat) (s : State) : Host.Outcome State Fault Refusal := .next (s.sdoFrame c req now)

/-- R396 SDO_UPLOAD. -/
def runSdoUpload (c : Fin 2) (req : List Byte) (now : Nat) (s : State) : Host.Outcome State Fault Refusal := .next (s.sdoFrame c req now)

/-- R396 SDO_SEGMENT. -/
def runSdoSegment (c : Fin 2) (req : List Byte) (now : Nat) (s : State) : Host.Outcome State Fault Refusal := .next (s.sdoFrame c req now)

/-- R396 SDO_ABORT. -/
def runSdoAbort (c : Fin 2) (req : List Byte) (s : State) : Host.Outcome State Fault Refusal := .next (s.sdoFrame c req s.now)

/-- R396 SDO_TIMEOUT: no segment for 1,000 ms. -/
def execSdoTimeout (c : Fin 2) (now : Nat) (s : State) : Host.Outcome State Fault Refusal :=
  .next (s.onSd fun s =>
    match s.mgmt.sdo c with
    | some x => if x.last + 1000000000 ≤ now then (s.at now).sdoFail c x.index x.sub 0x05040000 else s
    | none => s)

-- QMP (R396 to R398) ----------------------------------------------------------------------------------------------------------------------

/-- R397: the length of the message that starts `m`: header, data of a WRITE, CRC; none where the header is none of QMP's. -/
def qmpLength (m : List Byte) : Option Nat :=
  if m.length < 20 ∨ fld m 0 2 ≠ 0x4D51 ∨ fld m 2 1 ≠ 1 then none
  else match fld m 3 1 with
    | 1 => some 20
    | 2 => if fld m 10 2 ≤ 1024 then some (20 + fld m 10 2) else none
    | _ => none

/-- R397: the message at the start of `m` is complete and its CRC is right; `whole`: nothing may follow it. -/
def qmpGood (m : List Byte) (whole : Bool) : Bool :=
  match qmpLength m with
  | none => false
  | some n => decide (n ≤ m.length) && (!whole || decide (n = m.length)) && decide (crc32c (m.take (n - 4)) = fld m (n - 4) 4)

/-- R397: an ABORT of request `m`. -/
def qmpAbort (m : List Byte) (code : Nat) : List Byte := qmpMsg m 4 0 (leBytes 4 code)

/-- R397: a READ: the part of the value from OFFSET that was asked for, LAST at its end; at most `most` bytes go into one message. -/
def State.qmpReadReq (s : State) (src : Source) (most : Nat) (m : List Byte) : Option (List Byte) × State :=
  let r := s.odFetch (fld m 6 2) (fld m 8 1) src
  if r.1 ≠ 0 then (some (qmpAbort m r.1), r.2.2)
  else
    let off := fld m 12 4
    let part := (r.2.1.drop off).take (Nat.min most (fld m 10 2))
    (some (qmpMsg m 3 (b2n (decide (r.2.1.length ≤ off + part.length))) part), r.2.2)

/-- R397: a WRITE message of a peer, as part of its run: the answer, none where it waits for ARM. `barred`: over Kydor, commands and
CONFIRM are refused (R420). -/
def State.qmpWriteReq (s : State) (peer : Nat) (port : BitVec 16) (src : Source) (barred : Bool) (m : List Byte) (now : Nat) : Option (List Byte) × State :=
  let idx := fld m 6 2
  let sb := fld m 8 1
  let off := fld m 12 4
  let data := sub m 16 (fld m 10 2)
  let fits := match alook s.mgmt.qmpRuns peer with
    | none => decide (off = 0)
    | some r => decide (r.index = idx ∧ r.sub = sb ∧ off = r.data.length)
  let old := match alook s.mgmt.qmpRuns peer with
    | none => []
    | some r => r.data
  let t := { s with mgmt := { s.mgmt with qmpRuns := adel s.mgmt.qmpRuns peer } }
  let run : QmpRun := { index := idx, sub := sb, data := old ++ data }
  if fits = false ∨ (barred = true ∧ (odKey idx sb = 0x200001 ∨ odKey idx sb = 0x700001)) then
    (some (qmpAbort m 0x08000020), t.logRequest idx sb src 0x08000020 0)
  else if fld m 9 1 % 2 = 0 then (some (qmpWritten m 0), { t with mgmt := { t.mgmt with qmpRuns := aset t.mgmt.qmpRuns peer run } })
  else
    let r := t.odWrite idx sb (old ++ data) src now
    if r.2.armWaits idx sb (old ++ data) r.1 then
      (none, { r.2 with mgmt := { r.2.mgmt with armReply := some (.qmp peer port (m.take 16)) } })
    else (some (qmpWritten m r.1), r.2)

/-- The peer's request whose ARM is not yet answered. -/
def Mgmt.armFrom (m : Mgmt) (peer tid : Nat) : Bool :=
  match m.armReply with
  | some (.qmp p _ hdr) => decide (p = peer ∧ fld hdr 4 2 = tid)
  | _ => false

/-- R397: a good message that is no repetition; one for an entry of a Junesha die that does not run gets no answer. -/
def State.qmpFresh (s : State) (peer : Nat) (port : BitVec 16) (src : Source) (barred : Bool) (m : List Byte) (now : Nat) : Option (List Byte) × State :=
  if (s.sd.halted || s.sd.railLost) && servedByJunesha (odKey (fld m 6 2) (fld m 8 1)) then (none, s)
  else if fld m 3 1 = 1 then s.qmpReadReq src (if barred then 236 else 1024) m
  else s.qmpWriteReq peer port src barred m now

/-- R396, R397: a good message of a peer served; a repeated TRANS_ID gets the last response again. -/
def State.qmpServe (s : State) (peer : Nat) (port : BitVec 16) (src : Source) (barred : Bool) (m : List Byte) (now : Nat) : Option (List Byte) × State :=
  let tid := fld m 4 2
  if s.mgmt.armFrom peer tid then (none, s)
  else match alook s.mgmt.qmpLast peer with
    | some (t, r) => if t = tid then (some r, s) else s.qmpFresh peer port src barred m now
    | none => s.qmpFresh peer port src barred m now

/-- R396: a datagram of the management Ethernet: dropped unless it goes to QMP_PORT, QMP_PEER admits its sender and its CRC is right;
the answer goes to the address and port it came from. -/
def State.qmpUdp (s : State) (peer : UdpFrom) (msg : List Byte) (now : Nat) : State :=
  let only := s.odNat 0x111003
  if qmpGood msg true = false ∨ peer.dst.toNat ≠ s.odNat 0x111002 ∨ (only ≠ 0 ∧ only ≠ peer.ip.toNat) then s
  else
    let r := (s.at now).qmpServe peer.ip.toNat peer.port .qmp false msg now
    match r.1 with
    | some a => r.2.qmpSend peer.ip.toNat peer.port a
    | none => r.2

/-- R397 QMP_READ over UDP. -/
def runQmpRead (peer : UdpFrom) (msg : List Byte) (now : Nat) (s : State) : Host.Outcome State Fault Refusal :=
  .next (s.main fun s => s.qmpUdp peer msg now)

/-- R397 QMP_WRITE over UDP. -/
def runQmpWrite (peer : UdpFrom) (msg : List Byte) (now : Nat) (s : State) : Host.Outcome State Fault Refusal :=
  .next (s.main fun s => s.qmpUdp peer msg now)

/-- The mailbox's peer number. -/
abbrev mbxPeer : Nat := 2 ^ 32

/-- R398: the bytes of MBX_REQ. -/
def Bus.mbxRequest (b : Bus) : List Byte := ((List.range 261).map (fun i => leBytes 4 (b.reg (pcieB + 0x1000 + 4 * i)))).flatten

/-- R398: GO written: the message in MBX_REQ is served. While BUSY it is ignored; a message that QMP drops sets CRC_ERR. -/
def State.mbxGo (s : State) (now : Nat) : State :=
  let st := pcieB + 0x104
  if s.bus.flag st 30 then s.onBus (·.raise st 28)
  else
    let m := s.bus.mbxRequest
    if qmpGood m false = false then s.onBus (·.raise st 29)
    else
      let r := (s.onBus (·.setFlag st 30 true)).qmpServe mbxPeer 0 .mailbox false (m.take ((qmpLength m).getD 0)) now
      match r.1 with
      | some a => r.2.qmpSend mbxPeer 0 a
      | none => r.2

/-- R398 MBX_GO. -/
def runMbxGo (now : Nat) (s : State) : Host.Outcome State Fault Refusal := .next (s.main fun s => (s.at now).mbxGo now)

end Sys2Proof.Machine
end

