-- ==== Sys2Proof/Machine/Kydor.lean ====
section
/-! DEFINITION. Kydor links (R408 to R435): the writes a command leaves for register space and for peers, packets to and from peers,
the system's tokens and reports, the link states, and the system verdict. -/

namespace Sys2Proof.Machine

-- Packets out ----------------------------------------------------------------------------------------------------------------------------

/-- A device number. -/
def dev32 (n : Nat) : Fin 32 := ⟨n % 32, by omega⟩

/-- R411, R412, R434: a packet sent by port `k`. -/
def State.kydSend (s : State) (k : Nat) (m : KydPkt) : State := s.onBus (fun b => (b.kydPost k (.kyd k m)).emit (.kyd k m))

/-- R411, R417: a request to device `dst`, with a new tag, awaited when `use` says for what: the state, and the tag. -/
def State.kydRequest (s : State) (dst vc op addr : Nat) (fed ack bad : Bool) (pay : List Byte) (use : Option TagUse) : State × Nat :=
  match s.bus.topo.hop dst with
  | none => (s, 0)
  | some (k, _) =>
    let t := s.kydor.nextTag % 65536
    let m : KydPkt :=
      { dst := dev32 dst, src := dev32 s.bus.topo.own, vc := ⟨vc % 4, by omega⟩, cls := s.bus.topo.crosses k, response := false,
        op := BitVec.ofNat 8 op, tag := BitVec.ofNat 16 t, addr := BitVec.ofNat 34 addr, fed := fed, ack := ack, poison := bad,
        payload := pay }
    let tags := match use with | some u => aset s.kydor.tags t (k, u) | none => s.kydor.tags
    ({ s with kydor := { s.kydor with nextTag := t + 1, tags := tags } }.kydSend k m, t)

/-- R411, R418: a response to request `m`; one whose port is not UP is discarded. -/
def State.kydRespond (s : State) (m : KydPkt) (vc op : Nat) (pay : List Byte) (bad : Bool) : State :=
  match s.bus.topo.hop m.src.val with
  | none => s
  | some (k, _) =>
    if s.bus.reach m.src.val then
      s.kydSend k { m with dst := m.src, src := dev32 s.bus.topo.own, vc := ⟨vc % 4, by omega⟩, cls := s.bus.topo.crosses k,
                           response := true, op := BitVec.ofNat 8 op, fed := false, ack := false, poison := bad, payload := pay }
    else s.onBus (·.inc (kydB k + 0x11C))

/-- R104: an offset in the sync objects' words. -/
def inSync (a : Nat) : Bool := decide (0x20800000 ≤ a ∧ a < 0x20840000)

/-- R417: the channel of a write to address `a` of a peer. -/
def writeVc (a : Nat) : Nat := if inSync a then 1 else if a < 0x0A000000 then 2 else 3

-- Writes into register space and to peers (R21, R114, R417) -----------------------------------------------------------------------------------

/-- R10 to R14, R398: a register word written by `r`, the mailbox's GO included. -/
def State.regWrite (s : State) (r : Requester) (a v now : Nat) : State :=
  let t := s.writeWord r a v now
  if a = pcieB + 0x100 ∧ bit v 0 = true then t.mbxGo now else t

/-- An access to part of a register word names no register (R14); a write of part of the status window is logged like any other (R27). -/
def State.partAccess (s : State) (a : Nat) (v : Option Word) : State :=
  match v with
  | some w => if sdB ≤ a ∧ a < sdB + 0x100000 then s.sdWindow a w.toNat else s.unmappedAccess
  | none => s.unmappedAccess

/-- R10 to R14: bytes written from register address `a` on by `r`, word by word in ascending address. -/
def State.writePieces (s : State) (r : Requester) (a : Nat) (bs : List Byte) : State :=
  (regPieces bs.length a bs).foldl (fun s x => if x.2.1 then s.regWrite r x.1 x.2.2.toNat s.now else s.partAccess x.1 (some x.2.2)) s

/-- R10 to R14: `n` bytes read from register address `a` on by `r`, word by word in ascending address; part of a word reads 0. -/
def State.readRegs (s : State) (r : Requester) (a n : Nat) : List Byte × State :=
  let q := (wordsOf a n).foldl (fun (q : List Byte × State) x =>
    if x.2 then (let y := q.2.readWord r x.1 0; (q.1 ++ leBytes 4 y.1, y.2)) else (q.1 ++ zeros 4, q.2.partAccess x.1 none)) ([], s)
  ((q.1.drop (a % 4)).take n, q.2)

/-- R85: an access of a requester other than a BSE to [a, a + n) of HBM, counted line by line. -/
def Bus.hcAccess (b : Bus) (a n : Nat) : Bus :=
  (List.range ((a + n - 1) / 128 + 1 - a / 128)).foldl (fun b i =>
    let hit := Config.hcHit (16 - b.hcWays) (a / 128 + i) b.free
    { b with free := b.free + 1 }.inc (if hit then hcB + 0x400 else hcB + 0x404)) b

/-- A tag that `owner`'s task waits for: with the step's signals where these wait for it too, else before its DONE (R114, R143). -/
def State.awaitTag (s : State) (owner : Option (UnitId × Fin 2)) (hold : Bool) (t : Nat) : State :=
  match owner with
  | none => s
  | some (u, p) =>
    match s.ctx u p with
    | none => s
    | some x => s.setCtx u p (if hold && x.due.isSome then { x with tags := x.tags ++ [t] } else { x with owed := x.owed ++ [t] })

/-- R411: a write of a unit to a peer, in packets of up to 256 bytes. The unit asks for an acknowledgement wherever it has to know that
the write has been performed: for acknowledged signals (R114), a task's DONE (R143), a channel's FULL and FENCE (R268, R269). -/
def State.sendPieces (s : State) (owner : Option (UnitId × Fin 2)) (a : Nat) (fed hold bad : Bool) (ch : Option Nat) :
    List (List Byte) → State
  | [] => s
  | l :: ls =>
    let off := a % 2 ^ 34
    let ask := hold || owner.isSome || ch.isSome
    let r := s.kydRequest (a / 2 ^ 34 % 32) (writeVc off) (if inSync off then 0x03 else 0x02) off fed ask bad l
      (if ask then some (.write a l.length ch) else none)
    State.sendPieces (r.1.awaitTag owner hold r.2) owner (a + l.length) fed hold bad ch ls

/-- One of the accesses that a command left to be performed. -/
def State.perform (owner : Option (UnitId × Fin 2)) (s : State) : Late → State
  | .reg r a v => s.regWrite r a v.toNat s.now
  | .read r a => (s.readWord r a 0).2
  | .part a v => s.partAccess a v
  | .remote a bs fed ack bad ch => s.sendPieces owner a fed ack bad ch (chunks 256 (bs.length / 256 + 1) bs)
  | .hbm a n => s.onBus (·.hcAccess a n)
  | .calCopy => s.calCopy

/-- The writes left by a command performed, in their order; what those leave in turn follows, at most `n` times. -/
def State.settle (owner : Option (UnitId × Fin 2)) : Nat → State → State
  | 0, s => { s with bus := { s.bus with late := [] } }
  | n + 1, s =>
    if s.bus.late = [] then s
    else State.settle none n (s.bus.late.foldl (fun s l => s.perform owner l) { s with bus := { s.bus with late := [] } })

/-- A command's outcome with the writes it left performed. -/
def settled (owner : Option (UnitId × Fin 2)) : Host.Outcome State Fault Refusal → Host.Outcome State Fault Refusal
  | .next s => .next (s.settle owner 4)
  | .fault f => .fault f
  | .refused r => .refused r

-- Packets in -------------------------------------------------------------------------------------------------------------------------------

/-- R106: the requester number under which port `k` acts on this device. -/
def kydNo (k : Nat) : Nat := 81 + k % 2 + 16 * (k / 2)

/-- Port `k` exists and is UP in a system. -/
def State.portUp (s : State) (k : Nat) : Bool :=
  decide (1 < s.bus.topo.size) && (decide (k < 2) || s.bus.variant.isX2) && decide (s.bus.field (kydB k + 4) 1 0 = 2)

/-- R415, R416, R418: a transit packet that came in by port `k` forwarded, or discarded where its next port is not UP. -/
def State.transit (s : State) (k : Nat) (m : KydPkt) : State :=
  match s.bus.topo.hop m.dst.val with
  | none => s
  | some (j, _) =>
    if s.bus.reach m.dst.val then
      (s.onBus (·.inc (kydB k + 0x118))).kydSend j
        { m with cls := (decide (k / 2 = j / 2) && m.cls) || s.bus.topo.crosses j }
    else s.onBus (·.inc (kydB j + 0x11C))

/-- R416: a packet received by port `k`: taken by `f` where it is for this device, else forwarded. -/
def State.inbound (s : State) (k : Fin 4) (m : KydPkt) (f : State → State) : State :=
  s.main fun s =>
  if s.portUp k.val then
    let s := s.onBus (·.inc (kydB k.val + 0x104))
    if m.dst.val = s.bus.topo.own then f s else s.transit k.val m
  else s

/-- R411: a READ served: no answer where no byte may be read. The payload holds the number of bytes wanted. -/
def State.serveRead (s : State) (k : Nat) (m : KydPkt) : State :=
  let a := m.addr.toNat
  let n := Nat.min 256 (leNat m.payload)
  if n = 0 ∨ s.bus.served a n = false then s.onBus (·.busErr)
  else
    match placeLocal s.bus.variant a with
    | .um => s.kydRespond m m.vc.val 0x09 (s.bus.rdN a n) (s.bus.poisoned a n)
    | .regs =>
      let r := s.readRegs (.unit (kydNo k)) a n
      r.2.kydRespond m m.vc.val 0x09 r.1 false
    | _ => s.onBus (·.busErr)

/-- R411 KYD_READ. -/
def execKydRead (k : Fin 4) (m : KydPkt) (s : State) : Host.Outcome State Fault Refusal := .next (s.inbound k m fun s => s.serveRead k.val m)

/-- R411, R417: a WRITE landed, FED standing for the slot's SYNC_EN; acknowledged when it was performed and ACK asks for it. -/
def State.serveWrite (s : State) (k : Nat) (m : KydPkt) : State :=
  let a := m.addr.toNat
  match placeLocal s.bus.variant a with
  | .um =>
    let w := s.bus.write (.unit (kydNo k)) a m.payload (.slot m.fed false) false m.poison
    let s := { s with bus := w.1 }
    if m.ack = true ∧ w.2 = .done then s.kydRespond m m.vc.val 0x09 [] false else s
  | .regs =>
    if s.bus.served a m.payload.length = false then s.onBus (·.busErr)
    else
      let s := s.writePieces (.unit (kydNo k)) a m.payload
      if m.ack then s.kydRespond m m.vc.val 0x09 [] false else s
  | _ => s.onBus (·.busErr)

/-- R411 KYD_WRITE. -/
def execKydWrite (k : Fin 4) (m : KydPkt) (s : State) : Host.Outcome State Fault Refusal :=
  settled none (.next (s.inbound k m fun s => s.serveWrite k.val m))

/-- R417 KYD_SYNC: the word of a sync object written, its OP word to perform an operation. -/
def execKydSync (k : Fin 4) (m : KydPkt) (s : State) : Host.Outcome State Fault Refusal :=
  settled none (.next (s.inbound k m fun s => if inSync m.addr.toNat then s.serveWrite k.val m else s.onBus (·.busErr)))

/-- R88: the key of a history request. -/
def histKey (m : KydPkt) : Nat := fld m.payload 0 8 % 2 ^ 63

/-- R88: the BSE that serves a key for a peer. -/
def histBse (key : Nat) : Nat := bits (brickHash key) 31 26 % 4

/-- R85, R86, R88: the lines that a peer's request for a key touches in this device's history cache. -/
def State.hsTouch (s : State) (q f key : Nat) (pick : Cand → Cand → Option Nat) : State :=
  if s.bus.hsReady then
    let g := ({ bus := s.bus, kydor := s.kydor, trackers := s.hist.trackers } : Bse).touch q f (s.horizonOf f) key pick
    { s with bus := g.bus, hist := { s.hist with trackers := g.trackers } }
  else s

/-- R88 KYD_HS_LOOKUP: status word and payload go back. -/
def execKydHsLookup (k : Fin 4) (m : KydPkt) (s : State) : Host.Outcome State Fault Refusal :=
  .next (s.inbound k m fun s =>
    let f := fld m.payload 8 4
    let r := s.bus.hsFind f (s.horizonOf f) (histKey m)
    (s.hsTouch (histBse (histKey m)) f (histKey m) pickLookup |>.onBus (·.inc (bseB (histBse (histKey m)) + 0x13C))).kydRespond m 3 0x09
      (leBytes 4 r.status ++ r.payload) r.bad)

/-- R88 KYD_HS_WRITE: the entry placed, and acknowledged on the sync channel (R79, R413). -/
def execKydHsWrite (k : Fin 4) (m : KydPkt) (s : State) : Host.Outcome State Fault Refusal :=
  .next (s.inbound k m fun s =>
    let f := fld m.payload 8 4
    let q := histBse (histKey m)
    (s.hsTouch q f (histKey m) pickWrite |>.onBus (fun b =>
      (b.inc (bseB q + 0x13C)).hsWrite q f (s.horizonOf f) (histKey m) (sub m.payload 12 b.hsP) m.poison)).kydRespond
      m 1 0x09 [] false)

-- Answers (R411, R418) ------------------------------------------------------------------------------------------------------------------------

/-- The context whose step or task waits for the answer under a tag. -/
def State.tagOwner (s : State) (t : Nat) : Option ((UnitId × Fin 2) × Ctx) :=
  s.fseq.ctxs.find? (fun c => c.2.tags.contains t || c.2.owed.contains t)

/-- R79, R114: the signals due of a context given; a BSE's report to its system may follow (R89). -/
def State.endStep (s : State) (u : UnitId) (p : Fin 2) : State :=
  let t := s.giveDue u p
  match u with
  | .bse _ => t.tellSystem
  | _ => t

/-- R160: one write fewer holds the accumulators of a drained chain. -/
def State.drainTag (s : State) (u : UnitId) (t : Nat) : State :=
  match u with
  | .stn i =>
    (match (s.stn i.val).draining with
     | some l =>
       if l.contains t then
         (if l.filter (fun x => decide (x ≠ t)) = [] then s.holdAcc i.val none
          else s.setStn i.val { s.stn i.val with draining := some (l.filter (fun x => decide (x ≠ t))) })
       else s
     | none => s)
  | _ => s

/-- R79, R114: an answer has come that a context waits for: with the last one of its step the step signals and the list moves on. -/
def State.tagDone (s : State) (t : Nat) : State :=
  match s.tagOwner t with
  | none => s
  | some ((u, p), x) =>
    let y := { x with tags := x.tags.filter (fun i => decide (i ≠ t)), owed := x.owed.filter (fun i => decide (i ≠ t)) }
    let s := (s.setCtx u p y).drainTag u t
    if y.tags = [] then s.endStep u p else s

/-- R75, R88: the answer to the lookup whose status word belongs at `at'`: the step's writes are performed as an issued step's, its task
stopped or its frame abandoned in between or not (R145); what it reports it reports once. -/
def State.lookupDone (s : State) (t at' q : Nat) (r : HsAnswer) : State :=
  match s.tagOwner t with
  | none => s
  | some ((u, p), x) =>
    match s.fseq.frame x.frame, fetchStep s.bus x x.step with
    | some fr, some d =>
      let e := stepEnv u x fr d
      let g := ({ bus := s.bus, kydor := s.kydor } : Bse).place e q ((at' - e.base 3) / 4) r
      let s := { s with bus := g.bus }.settle (some (u, p)) 4
      let new := (g.codes ++ g.landed.codes).filter (fun c => !(x.told.contains c))
      let s := match s.ctx u p with
        | some y => s.setCtx u p { y with told := y.told ++ new }
        | none => s
      let s := if g.landed = .busErr then s.onBus (·.raise (bseB q + 4) 29) else s
      if x.stopped || fr.abandoned then s.tagDone t
      else if g.landed = .busErr then ((s.dropDue u p).stopCtx u p).tagDone t
      else if new.any (fun c => faultClass c = .stop) then ((s.dropDue u p).stopTask u p x fr new).tagDone t
      else (s.tagDone t).reports x.frame x.task (unitNo u) x.step none new
    | _, _ => s.tagDone t

/-- R84, R207, R209, R322: the BUS_ERR bit of a unit: its status register, and the bit. -/
def busErrBit : UnitId → Option (Nat × Nat)
  | .rbe q => some (rbeB q.val + 4, 30)
  | .gme g => some (gmeB g.val + 4, 30)
  | .bse q => some (bseB q.val + 4, 29)
  | .sme => some (smeB + 4, 30)
  | .cre c => some (creB c.val + 4, 31)
  | .cle => some (cleB + 4, 31)
  | _ => none

/-- R84, R144, R271, R418: a write of a task that its peer has not acknowledged in time, as the issuing unit's chapter has a bus error. -/
def State.writeLost (s : State) (u : UnitId) (p : Fin 2) (x : Ctx) (fr : OpenFrame) (a : Nat) : State :=
  match u with
  | .dma c =>
    (s.onBus (fun b => { b with free := b.free + 1 })).dmaStepLate c p x fr { code := 1, write := true, row := s.bus.someRow [], addr := a }
  | .bse _ => s.stopCtx u p
  | _ => s.stopTask u p x fr [0x08]

/-- R418: the time-out of a write of `a`, whose tag is `t`: its step signals no more, and its task stops, unless it has stopped. -/
def State.writeTimeout (s : State) (t a : Nat) : State :=
  match s.tagOwner t with
  | none => (s.onBus (·.busErr)).emit (.busError a)
  | some ((u, p), x) =>
    let s := s.onBus (·.busErr)
    let s := match busErrBit u with | some w => s.onBus (·.raise w.1 w.2) | none => s
    let s := (if x.tags.contains t then s.dropDue u p else s).tagDone t
    match s.fseq.frame x.frame, s.ctx u p with
    | some fr, some y => if y.stopped || fr.abandoned then s else s.writeLost u p y fr a
    | _, _ => s

/-- A transaction answered, or `ok` false: given up as a bus error (R418), as the issuing unit's chapter has it. -/
def State.resolveTag (s : State) (t : Nat) (use : TagUse) (ok : Bool) (pay : List Byte) (bad : Bool) : State :=
  match use with
  | .read a _ => if ok then s.emit (.memData a pay bad) else (s.onBus (·.busErr)).emit (.busError a)
  | .write a _ (some c) => if ok then s.halfDue c else (s.onBus (·.busErr)).dmaLate c 1 true a
  | .write a _ none => if ok then s.tagDone t else s.writeTimeout t a
  | .lookup at' _ q => s.lookupDone t at' q (if ok then { status := fld pay 0 4, payload := sub pay 4 s.bus.hsP, bad := bad } else s.bus.hsNone 27)
  | .histWrite q => (if ok then s else s.onBus (·.inc (bseB q + 0x130))).tagDone t

/-- R411 KYD_COMPLETION; one whose tag is no longer awaited is discarded (R418). -/
def execKydCompletion (k : Fin 4) (m : KydPkt) (s : State) : Host.Outcome State Fault Refusal :=
  settled none (.next (s.inbound k m fun s =>
    match alook s.kydor.tags m.tag.toNat with
    | none => s
    | some (_, use) =>
      { s with kydor := { s.kydor with tags := adel s.kydor.tags m.tag.toNat } }.resolveTag m.tag.toNat use true m.payload m.poison))

/-- R418 RESP_TIMEOUT. -/
def execRespTimeout (tag : BitVec 16) (s : State) : Host.Outcome State Fault Refusal :=
  settled none (.next (s.main fun s =>
    match alook s.kydor.tags tag.toNat with
    | none => s
    | some (k, use) =>
      ({ s with kydor := { s.kydor with tags := adel s.kydor.tags tag.toNat } }.onBus (·.inc (kydB k + 0x124))).resolveTag tag.toNat use
        false [] false))

/-- R416 KYD_TRANSIT. -/
def execKydTransit (k : Fin 4) (m : KydPkt) (s : State) : Host.Outcome State Fault Refusal := .next (s.inbound k m id)

/-- R420 KYD_QMP: a request in one packet served as the Kydor peer's; a response is the firmware's own. -/
def runKydQmp (k : Fin 4) (m : KydPkt) (now : Nat) (s : State) : Host.Outcome State Fault Refusal :=
  .next (s.inbound k m fun s =>
    if m.response || !(qmpGood m.payload true) then s
    else
      let peer := 2 ^ 33 + m.src.val
      let r := (s.at now).qmpServe peer 0 .internal true m.payload now
      match r.1 with
      | some a => (r.2.qmpSend peer 0 a).kydRespond m 3 0x08 a false
      | none => r.2)

-- Tokens and reports (R413, R419, R422, R427 to R429) --------------------------------------------------------------------------------------------

/-- This device is its system's manager; a worker is `isWorker`. -/
def State.isManager (s : State) : Bool := decide (1 < s.bus.topo.size ∧ s.bus.topo.own = 0)

/-- R422: a report of device `n` kept. -/
def Kydor.report (y : Kydor) (n : Nat) (ready : Bool) (links : Nat) (crc : Word) : Kydor :=
  { y with startReady := if ready then nins y.startReady n else ndel y.startReady n, links := aset y.links n links,
           sysCrcs := aset y.sysCrcs n crc }

/-- R89: a report that the history writes of frame `f` are complete on device `n`; those of frames long past are dropped. -/
def State.histReport (s : State) (n f : Nat) : State :=
  let l := s.kydor.histDone.filter (fun x => decide (f < x.2 + 8))
  { s with kydor := { s.kydor with histDone := if l.contains (n, f) then l else (n, f) :: l } }

/-- R77, R89: a report that the history lookups of frame `f` are complete on device `n`. -/
def State.lookReport (s : State) (n f : Nat) : State :=
  let l := s.kydor.lookDone.filter (fun x => decide (f < x.2 + 8))
  { s with kydor := { s.kydor with lookDone := if l.contains (n, f) then l else (n, f) :: l } }

/-- R419: an abandonment reported or relayed: the frames open here are abandoned too, and the manager relays one of a frame that it does
not hold open. -/
def State.abandonFrom (s : State) (f : Nat) : State :=
  match s.fseq.frame f with
  | some x => if x.abandoned then s else s.abandonAll
  | none => if s.isManager then s.token (.kydTok (.abandon f)) else s

/-- R428, R429, R340: the system verdict received by a worker's Junesha die. -/
def State.takeSystem (s : State) (v : Verdict) (latched : Bool) : State :=
  let inv := s.invalidTrips v.valid
  let s := (s.deliver v).verdictCauses v.frame false inv none
  if latched then s.trip 0x0A false else s

/-- What a token does. -/
def State.takeToken (s : State) (tok : KydTok) (now : Nat) : State :=
  match tok with
  | .start => if s.isWorker then s.onSd (fun s => { s with kydor := { s.kydor with runAt := some (s.bus.firstFrame (now + 2000000), true) } }) else s
  | .stop => if s.isWorker then s.onSd (fun s => { s with kydor := { s.kydor with runAt := some (s.bus.firstFrame (now + 2000000), false) } }) else s
  | .state n c => if s.isManager then { s with kydor := { s.kydor with states := aset s.kydor.states n.val c } } else s
  | .report n ready links crc => if s.isManager then { s with kydor := s.kydor.report n.val ready links.toNat crc } else s
  | .retired n f =>
    if s.isManager then
      { s with kydor := { s.kydor with retired := aset s.kydor.retired n.val (Nat.max f ((alook s.kydor.retired n.val).getD 0)) } }.sendReleases
    else s
  | .lookDone n f =>
    if s.isManager then (if n.val = 0 then s else (s.lookReport n.val f).relayLook f)
    else if n.val = 0 then s.lookReport 0 f else s
  | .histDone n f =>
    if s.isManager then (if n.val = 0 then s else (s.histReport n.val f).relayHist f)
    else if n.val = 0 then s.histReport 0 f else s
  | .abandon f => s.abandonFrom f
  | .frameToken f _ => if s.isWorker then { s with fseq := { s.fseq with released := nins s.fseq.released f } } else s
  | .systemVerdict v latched => if s.isWorker then s.onSd (·.takeSystem v latched) else s

/-- R413 KYD_TOKEN. -/
def execKydToken (k : Fin 4) (tok : KydTok) (now : Nat) (s : State) : Host.Outcome State Fault Refusal :=
  .next (s.main fun s =>
    if s.portUp k.val then ((s.at now).onBus (·.inc (kydB k.val + 0x104))).takeToken tok now else s)

/-- R427 KYD_RECORD: a worker's Junesha die takes records and end mark from the manager's stream. -/
def execKydRecord (k : Fin 4) (f : Nat) (bytes : List Byte) (last : Bool) (s : State) : Host.Outcome State Fault Refusal :=
  .next (s.main fun s =>
    if s.portUp k.val && s.isWorker then
      (s.onBus (·.inc (kydB k.val + 0x104))).onSd (fun s => if last then s.takeEnd f s.now else s.takeBox f bytes)
    else s)

/-- R419 FRAME_RELEASE. -/
def execFrameRelease (f : Nat) (s : State) : Host.Outcome State Fault Refusal :=
  .next (s.main fun s => if s.isWorker then { s with fseq := { s.fseq with released := nins s.fseq.released f } } else s)

/-- R427, R429 LOCAL_VERDICT: a worker's local verdict reaches the manager's Junesha die; one with LATCHED takes it into the safe
state. -/
def execLocalVerdict (dev : Fin 32) (f : Nat) (v : LocalVerdict) (s : State) : Host.Outcome State Fault Refusal :=
  .next (s.onSd fun s =>
    if s.isManager && decide (0 < dev.val ∧ dev.val < s.bus.topo.size) then
      let s := { s with kydor := { s.kydor with locals := aset (s.kydor.locals.filter (fun x => decide (f < x.1.2 + 8))) (dev.val, f) v } }
      if v.latched then ({ s with kydor := { s.kydor with latchedSystem := true } }).trip 0x0A false else s
    else s)

/-- R428: REASON of the system verdict: the manager's own, a missing local verdict, another device's that is not VALID. -/
def systemReason (own : LocalVerdict) (others : List (Option LocalVerdict)) : Nat :=
  firstReason (own.reason.toNat :: (others.map (fun o => match o with
    | none => 0x0202
    | some v => if v.valid then 0 else if own.reason = 0 then 0x0208 else 0)))

/-- R428: a sum over the devices, saturating at its field's width. -/
def sumSat (w : Nat) (l : List Nat) : Nat := Nat.min (lsum l) (2 ^ w - 1)

/-- R338 to R340, R428: the system verdict of frame `f` issued, with LATCHED while the manager is latched (R429). -/
def State.issueSystem (s : State) (f : Nat) (own : LocalVerdict) (others : List (Option LocalVerdict)) : State :=
  let all := own :: others.filterMap id
  let r := systemReason own others
  let inv := s.invalidTrips (decide (r = 0))
  let v := s.verdictOf f (if inv then 0x0203 else r) (sumSat 32 (all.map (fun x => x.cells.toNat))) (sumSat 32 (all.map (fun x => x.missed.toNat)))
    (sumSat 16 (all.map (fun x => x.unsupported.toNat)))
  let s := { s with kydor := { s.kydor with
    own := adel s.kydor.own f, locals := s.kydor.locals.filter (fun x => decide (x.1.2 ≠ f)) } }
  ((s.deliver v).token (.kydTok (.systemVerdict v (s.sd.latched || s.kydor.latchedSystem)))).verdictCauses f false inv none

/-- R428 SYSTEM_VERDICT: with every local verdict at hand, or at the deadline. -/
def execSystemVerdict (f now : Nat) (s : State) : Host.Outcome State Fault Refusal :=
  .next (s.onSd fun s =>
    let others := (List.range s.bus.topo.size).drop 1 |>.map (fun d => alook s.kydor.locals (d, f))
    match (if s.isManager then alook s.kydor.own f else none) with
    | none => s
    | some own => if !s.inSweep && (others.all (·.isSome) || decide (s.chkDeadline f ≤ now)) then (s.at now).issueSystem f own others else s)

-- Links (R412, R431, R432) -----------------------------------------------------------------------------------------------------------------------

/-- R422: this device's report, sent when its links change. -/
def State.linkReport (s : State) : State :=
  if 0 < s.bus.topo.own then s.sendReport (dev32 s.bus.topo.own) else s

/-- R412: packet `q` of port `k` and those after it sent again. -/
def State.replay (s : State) (k q : Nat) : State := s.onBus (fun b => (b.replayFrom k q).foldl (fun b o => b.emit o) b)

/-- R412, R431: the link of port `k` goes DOWN: HELD in ARMED and RUN, training again in CONFIG and COMMISSION. What it kept for a replay is
gone. -/
def State.linkDown (s : State) (k : Nat) : State :=
  let st := kydB k + 4
  if s.bus.field st 1 0 = 2 ∨ s.bus.field st 1 0 = 1 then
    let v := if s.sd.state = .armed ∨ s.sd.state = .run then 3 else if s.calWritable then 1 else 0
    let gone (b : Bus) : Bus := { b with sent := b.sent.filter (fun x => decide (x.1 ≠ k)), lseqs := adel b.lseqs k }
    ({ s.onBus (fun b => (gone ((b.setField st 1 0 v).raise st 31)).inc (kydB k + 0x128)) with
       kydor := { s.kydor with replays := adel s.kydor.replays k } }).linkReport
  else s

/-- Port `k` exists. -/
def State.hasPort (s : State) (k : Fin 4) : Bool := decide (k.val < 2) || s.bus.variant.isX2

/-- R412 KYD_NAK: the packet `lseq` is replayed; the 8th replay of one packet takes the link DOWN. -/
def execKydNak (k : Fin 4) (lseq : BitVec 12) (s : State) : Host.Outcome State Fault Refusal :=
  .next (s.main fun s =>
    if s.portUp k.val then
      let n := match alook s.kydor.replays k.val with
        | some (q, c) => if q = lseq.toNat then c + 1 else 1
        | none => 1
      let s := { s.onBus (·.inc (kydB k.val + 0x10C)) with kydor := { s.kydor with replays := aset s.kydor.replays k.val (lseq.toNat, n) } }
      let s := s.replay k.val lseq.toNat
      if 8 ≤ n then s.linkDown k.val else s
    else s)

/-- R412 KYD_IDLE_TIMEOUT. -/
def execKydIdleTimeout (k : Fin 4) (s : State) : Host.Outcome State Fault Refusal :=
  .next (s.main fun s => if s.hasPort k then s.linkDown k.val else s)

/-- R412, R431 PCS_LOCK_LOST. -/
def execPcsLockLost (k : Fin 4) (s : State) : Host.Outcome State Fault Refusal :=
  .next (s.main fun s => if s.hasPort k then s.linkDown k.val else s)

/-- R409: the device that port `k` is wired to. -/
def Topo.neighbour (t : Topo) (k : Nat) : Nat :=
  let x := t.own % t.xs
  let y := t.own / t.xs
  if k = 0 then y * t.xs + (x + 1) % t.xs
  else if k = 1 then y * t.xs + (x + t.xs - 1) % t.xs
  else if k = 2 then (y + 1) % t.ys * t.xs + x
  else (y + t.ys - 1) % t.ys * t.xs + x

/-- R432 KYD_LINK_UP: training completes; a neighbour other than R409's holds the link in HELD. -/
def execKydLinkUp (k : Fin 4) (peer : Fin 32) (s : State) : Host.Outcome State Fault Refusal :=
  .next (s.main fun s =>
    let st := kydB k.val + 4
    if s.hasPort k && decide (1 < s.bus.topo.size) && decide (s.bus.field st 1 0 = 1) then
      let good := decide (s.bus.topo.neighbour k.val = peer.val) && bit s.bus.topo.ports k.val
      (s.onBus (fun b =>
        let b := (b.setReg (kydB k.val + 8) peer.val).setField st 1 0 (if good then 2 else 3)
        if good then b else b.raise st 30)).linkReport
    else s)

/-- R435 RETRAIN. -/
def execRetrain (k : Fin 4) (s : State) : Host.Outcome State Fault Refusal :=
  .next (s.main fun s => if s.hasPort k then s.retrain k.val else s)

end Sys2Proof.Machine
end

