-- ==== Sys2Proof/Machine/Plat.lean ====
section
/-! DEFINITION. Clocks, rails, power, temperature, resets and start-up (R436 to R454, R461): the events that the board, the clocks and the
monitors raise. -/

namespace Sys2Proof.Machine

-- Clocks and rails (R437 to R443) --------------------------------------------------------------------------------------------------------

/-- R437: PWR_STATUS.PLL_LOCK. -/
def State.pllLocked (s : State) : Bool := s.bus.flag (pwrB) 0

/-- R437 PLL_UNLOCK: the cross-monitor's own trip follows as CLOCK_MONITOR_TRIP. -/
def execPllUnlock (s : State) : Host.Outcome State Fault Refusal :=
  .next (if s.plat.pllOn then s.onBus (fun b => ((b.setFlag pwrB 0 false).raise pwrB 31).inc (pwrB + 0x10C)) else s)

/-- R452: start-up stops in BOOT with a code. -/
def State.stopBoot (s : State) (code : Nat) : State :=
  if s.sd.state = .boot ∧ s.plat.bootStopped = false then { s with plat := { s.plat with bootCode := code } } else s

/-- R439: the monitored clock exists: the last two are those of I/O die 1. -/
def clockPresent (v : Variant) (c : Fin 9) : Bool := decide (c.val < 7) || v.isX2

/-- R345, R386, R439, R452 CLOCK_MONITOR_TRIP: a clock's count has departed from nominal by at least `x.ppm` in two consecutive windows;
within the range it is back. In step 4 of start-up a trip stops start-up. -/
def execClockMonitorTrip (x : ClockCount) (s : State) : Host.Outcome State Fault Refusal :=
  .next (s.onSd fun s =>
    let clock := x.clock
    let ppm := x.ppm
    if clockPresent s.bus.variant clock = false then s
    else if clockTrips ppm = false then s.setPersist (32 + clock.val) false
    else
      let s := s.setPersist (32 + clock.val) true
      if s.sd.state = .boot then (if 4 ≤ s.plat.bootStep then s.stopBoot 0x04 else s) else s.trip 7 true)

/-- R440 SD_CLOCK_FAILURE: as a lockstep mismatch. -/
def execSdClockFailure (s : State) : Host.Outcome State Fault Refusal :=
  .next { s with sd := { s.sd with halted := true, safeA := false, safeB := false, pulseA := none, pulseB := none } }

/-- R443 VOLTAGE_FAULT: `samples` consecutive samples of a rail lie beyond a trip point; 0 says that the rail is back. -/
def execVoltageFault (rail : Fin 10) (samples : Nat) (s : State) : Host.Outcome State Fault Refusal :=
  .next (s.onSd fun s =>
    if samples = 0 then s.setPersist (16 + rail.val) false
    else if voltTrips samples = false ∨ s.canTrip true = false then s
    else (s.setPersist (16 + rail.val) true).trip 7 true)

/-- R343, R443 JUNESHA_RAIL_LOST: outputs low, the die silent. -/
def execJuneshaRailLost (s : State) : Host.Outcome State Fault Refusal :=
  .next { s with
    sd := { s.sd with railLost := true, state := .off, safeA := false, safeB := false, pulseA := none, pulseB := none }
    plat := { s.plat with sdPg := false } }

-- Power (R444 to R446, R448) ---------------------------------------------------------------------------------------------------------------

/-- R453: n_p and n_t. -/
def Bus.np (b : Bus) : Nat := b.field (pwrB + 8) 4 0
def Bus.nt (b : Bus) : Nat := b.field (pwrB + 8) 12 8

/-- R448: the duties set: n their lesser, CAP and THROTTLE with them. -/
def Bus.setDuty (b : Bus) (np nt : Nat) : Bus :=
  ((b.setReg (pwrB + 8) (Nat.min np nt * 2 ^ 16 + nt * 2 ^ 8 + np)).setFlag pwrB 1 (decide (np < 16))).setFlag pwrB 2 (decide (nt < 16))

/-- R453: the milliseconds since the last step counted, and a limit that has come into force. -/
def State.dutyClock (s : State) (now : Nat) : State :=
  let s := s.at now
  let k := now / 1000000 - s.plat.msAt / 1000000
  let s := s.onBus (fun b => ((b.bump (pwrB + 0x100) (if b.flag pwrB 2 then k else 0)).bump (pwrB + 0x104) (if b.flag pwrB 1 then k else 0)).setReg
    (pwrB + 4) s.limitNow)
  let due := decide (s.plat.pendAt / 1000000 < s.now / 1000000)
  { s with plat := { s.plat with msAt := Nat.max now s.plat.msAt, pendLimit := if due then none else s.plat.pendLimit } }

/-- The instant since which a condition has held, and whether it has held for `span` ns: then it begins anew. -/
def since (t : Option Nat) (now span : Nat) : Option Nat × Bool :=
  match t with
  | none => (some now, false)
  | some x => if x + span ≤ now then (some now, true) else (some x, false)

/-- R445: above the limit n_p falls by 1; at 1 for 1 ms the limit is unreached. -/
def State.powerAbove (s : State) (now : Nat) : State :=
  let n := s.bus.np
  if 1 < n then
    { s.onBus (fun b => b.setDuty (n - 1) b.nt) with
      plat := { s.plat with riseSince := none, unreachSince := if n = 2 then some now else none } }
  else
    let u := since s.plat.unreachSince now 1000000
    let s := { s with plat := { s.plat with riseSince := none, unreachSince := u.1 } }
    if u.2 then s.onBus (fun b => (b.raise pwrB 30).inc (pwrB + 0x108)) else s

/-- R445: below 95 % of the limit for 1 ms, n_p rises by 1. -/
def State.powerBelow (s : State) (now : Nat) : State :=
  let u := since s.plat.riseSince now 1000000
  let s := { s with plat := { s.plat with riseSince := u.1, unreachSince := none } }
  if u.2 then s.onBus (fun b => b.setDuty (Nat.min 16 (b.np + 1)) b.nt) else s

/-- R445: a step of the power duty, every 100 µs: the mean `power` of the last millisecond in 0.1 W. -/
def State.powerStep (s : State) (power now : Nat) : State :=
  let s := (s.dutyClock now).onBus (·.setReg (pwrB + 0x0C) power)
  let limit := 10 * s.limitNow
  if limit < power then s.powerAbove now
  else if 100 * power < 95 * limit then s.powerBelow now
  else { s with plat := { s.plat with riseSince := none, unreachSince := none } }

/-- R445 POWER_DUTY_STEP. -/
def execPowerDutyStep (power : BitVec 16) (now : Nat) (s : State) : Host.Outcome State Fault Refusal :=
  .next (s.main fun s => s.powerStep power.toNat now)

-- Temperature (R447, R449) --------------------------------------------------------------------------------------------------------------------

/-- R447: the temperature that steers n_t, in 0.125 °C: a hot stack counts as 105 °C. -/
def State.steerTemp (s : State) (tj : Int) : Int := if s.plat.hbmHot ≠ [] ∧ tj < 840 then 840 else tj

/-- R447: a step of the thermal duty. -/
def State.thermalStep (s : State) (sensor tj now : Nat) : State :=
  let s := (s.dutyClock now).onBus (·.setReg (pwrB + 0x10) (sensor * 2 ^ 16 + tj))
  let t := s.steerTemp (sext 16 tj)
  if 840 ≤ t then
    let u := since s.plat.thermSince now 1000000
    let s := { s with plat := { s.plat with thermSince := u.1, coolSince := none } }
    if u.2 then s.onBus (fun b => b.setDuty b.np (Nat.max 1 (b.nt - 1))) else s
  else if t < 824 then
    let u := since s.plat.coolSince now 10000000
    let s := { s with plat := { s.plat with coolSince := u.1, thermSince := none } }
    if u.2 then s.onBus (fun b => b.setDuty b.np (Nat.min 16 (b.nt + 1))) else s
  else { s with plat := { s.plat with thermSince := none, coolSince := none } }

/-- R447 THERMAL_DUTY_STEP: the hottest sensor and its reading in 0.125 °C. -/
def execThermalDutyStep (sensor : Byte) (tj : BitVec 16) (now : Nat) (s : State) : Host.Outcome State Fault Refusal :=
  .next (s.main fun s => s.thermalStep sensor.toNat tj.toNat now)

/-- R447 HBM_TEMP_READ: the refresh rate doubles from 85 °C, HBM_HOT shows a stack at or above 95 °C. -/
def execHbmTempRead (k : Fin 6) (t : Byte) (s : State) : Host.Outcome State Fault Refusal :=
  .next (s.main fun s =>
    if k.val < s.bus.variant.stacks then
      let hot := if 95 ≤ t.toInt then nins s.plat.hbmHot k.val else ndel s.plat.hbmHot k.val
      let r2 := if 85 ≤ t.toInt then nins s.plat.hbmRefresh2 k.val else ndel s.plat.hbmRefresh2 k.val
      { s.onBus (fun b => (b.setReg (pwrB + 0x20 + 4 * k.val) t.toNat).setFlag pwrB 3 (decide (hot ≠ []))) with
        plat := { s.plat with hbmHot := hot, hbmRefresh2 := r2 } }
    else s)

/-- R449 THERMAL_TRIP: cause 0x08, which persists until the next BOOT. -/
def execThermalTrip (now : Nat) (s : State) : Host.Outcome State Fault Refusal :=
  .next (s.onSd fun s =>
    if s.canTrip true then
      let t := ((s.at now).setPersist 8 true).trip 8 true
      { t with plat := { t.plat with tripped := some (t.plat.tripped.getD now) } }
    else s)

/-- R449 SHDN: 1 ms after the trip. -/
def execShdn (now : Nat) (s : State) : Host.Outcome State Fault Refusal :=
  .next (s.onSd fun s =>
    match s.plat.tripped with
    | some t => if t + 1000000 ≤ now then { s.at now with plat := { s.plat with mainHeld := true, shdnLow := true } } else s
    | none => s)

-- Resets (R450, R456) ------------------------------------------------------------------------------------------------------------------------

/-- R450, R456 SD_PG_RISE: BOOT, TEST_MODE sampled, the TAPs in Test-Logic-Reset. -/
def execSdPgRise (testMode : Bool) (s : State) : Host.Outcome State Fault Refusal :=
  .next { s with plat := { s.plat with sdPg := true, testMode := testMode, tapIr := [], boundary := [], highz := [] } }.bootReset

/-- R450 RESET_N: low for at least 1 µs. -/
def execResetN (lowNs : Nat) (s : State) : Host.Outcome State Fault Refusal :=
  .next (if 1000 ≤ lowNs ∧ s.sd.railLost = false then s.bootReset else s)

/-- R12: what a reset endpoint held for 64-bit registers is gone. -/
def State.dropHolds (s : State) (e : Fin 2) : State :=
  { s with access := {
      snaps := s.access.snaps.filter (fun x => decide (x.1.1 ≠ .pcie e)),
      held := s.access.held.filter (fun x => decide (x.1.1 ≠ .pcie e)) } }

/-- R450 PERST_N of I/O die `d`. -/
def execPerstN (d : Fin 2) (low : Bool) (s : State) : Host.Outcome State Fault Refusal :=
  .next (if d.val = 0 ∨ s.bus.variant.isX2 = true then
      let t := s.dropHolds d
      { t with plat := { t.plat with pcieReset := if low then nins t.plat.pcieReset d.val else ndel t.plat.pcieReset d.val } }
    else s)

/-- R450 PCIE_HOT_RESET: over when the command is. -/
def execPcieHotReset (d : Fin 2) (s : State) : Host.Outcome State Fault Refusal := .next (s.dropHolds d)

/-- R450 PCIE_LINK_DOWN. -/
def execPcieLinkDown (e : Fin 2) (down : Bool) (s : State) : Host.Outcome State Fault Refusal :=
  .next { s with plat := { s.plat with pcieDown := if down then nins s.plat.pcieDown e.val else ndel s.plat.pcieDown e.val } }

-- Start-up (R407, R451, R452, R461) --------------------------------------------------------------------------------------------------------------

/-- Start-up goes on in BOOT. -/
def State.booting (s : State) : Bool := decide (s.sd.state = .boot) && !s.plat.bootStopped

/-- R451 step 4 MAIN_PG_RISE: the root PLL is enabled. -/
def execMainPgRise (s : State) : Host.Outcome State Fault Refusal :=
  .next (
    let t := { s with plat := { s.plat with mainPg := true } }
    if s.booting && decide (s.plat.bootStep ≤ 4) && !s.sd.railLost && !s.sd.halted then
      { t with plat := { t.plat with bootStep := 4, pllOn := true } }
    else t)

/-- R450 MAIN_PG_FALL: after BOOT the main dies are held in reset and the device enters SAFE with cause 0x07, which persists until the next
BOOT; in BOOT start-up waits for MAIN_PG again. -/
def execMainPgFall (s : State) : Host.Outcome State Fault Refusal :=
  .next (
    let t := { s with plat := { s.plat with mainPg := false, mainHeld := true } }
    t.onSd fun t =>
      if t.sd.state = .boot then { t with plat := { t.plat with bootStep := Nat.min 4 t.plat.bootStep, pllOn := false } }
      else (t.setPersist 7 true).trip 7 true)

/-- R452 MAIN_PG_TIMEOUT. -/
def execMainPgTimeout (s : State) : Host.Outcome State Fault Refusal :=
  .next (s.onSd fun s => if s.plat.mainPg = false ∧ s.plat.bootStep ≤ 4 then s.stopBoot 0x03 else s)

/-- R437, R451 PLL_LOCK: IOD0 is released. -/
def execPllLock (s : State) : Host.Outcome State Fault Refusal :=
  .next (
    if s.plat.pllOn then
      let t := s.onBus (·.setFlag pwrB 0 true)
      if t.booting && decide (t.plat.bootStep = 4) && t.plat.mainPg && !t.sd.railLost && !t.sd.halted then
        { t with plat := { t.plat with bootStep := 5 } }
      else t
    else s)

/-- R452 PLL_LOCK_TIMEOUT. -/
def execPllLockTimeout (s : State) : Host.Outcome State Fault Refusal :=
  .next (s.onSd fun s => if s.plat.pllOn && decide (s.plat.bootStep = 4) && !s.pllLocked then s.stopBoot 0x04 else s)

/-- R407 NO_AEDBAOD_SLOT_ACCEPTED. -/
def execNoAedbaodSlotAccepted (s : State) : Host.Outcome State Fault Refusal :=
  .next (s.onSd fun s => if s.plat.bootStep = 5 ∧ s.mgmt.bootSlot = none then s.stopBoot 0x01 else s)

/-- R405, R451 step 6 AEDBAOD_RUNNING: the other dies are released: SELFTEST. -/
def execAedbaodRunning (s : State) : Host.Outcome State Fault Refusal :=
  .next (s.onSd fun s =>
    match s.mgmt.bootSlot with
    | some i =>
      if s.booting && decide (s.plat.bootStep = 5) then
        { s with mgmt := { s.mgmt with running := i }, plat := { s.plat with mainHeld := false, bootStep := 7 } }.setDev .selftest
      else s
    | none => s)

/-- R451 step 7 HBM_TRAINING_DONE. -/
def execHbmTrainingDone (failed : List (Fin 6)) (s : State) : Host.Outcome State Fault Refusal :=
  .next (s.main fun s =>
    if s.sd.state = .selftest ∧ s.plat.bootStep = 7 then
      let l := (failed.map (fun (k : Fin 6) => k.val)).filter (fun k => decide (k < s.bus.variant.stacks))
      { s with plat := { s.plat with hbmFailed := l.foldl nins [], bootStep := 8 } }
    else s)

/-- R461: the result of unit `u` among `results`. -/
def bistResultOf (results : List (Fin 14 × BistResult)) (u : Nat) : Option BistResult :=
  (results.find? (fun x => decide (x.1.val = u))).map (·.2)

/-- R461: unit `u` of start-up BIST: tested, failed in training, or absent. -/
inductive BistKind where
  | tested | untrained | absent
  deriving DecidableEq, Repr

/-- R461. -/
def State.bistKind (s : State) (u : Nat) : BistKind :=
  if bistUnit s.bus.variant u = false then .absent
  else if 8 ≤ u ∧ s.plat.hbmFailed.contains (u - 8) = true then .untrained
  else .tested

/-- R459, R461: the record of unit `u`, its memories left at zero where it was tested. -/
def State.bistStartup (results : List (Fin 14 × BistResult)) (s : State) (u : Nat) : State :=
  match s.bistKind u, bistResultOf results u with
  | .tested, some r =>
    { s with mgmt := { s.mgmt with unitResults := aset s.mgmt.unitResults u (bistRecord (s.bistPassed u r) r true (decide (u < 8))) } }.bistWipe u
  | .absent, _ =>
    let q := s.bus.bareRecord 24
    { s with bus := q.2, mgmt := { s.mgmt with unitResults := aset s.mgmt.unitResults u q.1 } }
  | _, _ =>
    let q := s.bus.bareRecord 17
    { s with bus := q.2, mgmt := { s.mgmt with unitResults := aset s.mgmt.unitResults u q.1 } }

/-- R461: every unit tested has passed, and every stack has trained. -/
def State.bistPasses (s : State) (results : List (Fin 14 × BistResult)) : Bool :=
  (List.range 14).all (fun u => match s.bistKind u with
    | .absent => true
    | .untrained => false
    | .tested => (match bistResultOf results u with | some r => s.bistPassed u r | none => false))

/-- R461: a result is there for every unit tested. -/
def State.bistComplete (s : State) (results : List (Fin 14 × BistResult)) : Bool :=
  (List.range 14).all (fun u => decide (s.bistKind u ≠ .tested) || (bistResultOf results u).isSome)

/-- R354, R451 step 8, R461 STARTUP_BIST_DONE: SAFE with CAUSE 0x03 where a unit fails; the sweep of step 9 follows. -/
def runStartupBistDone (results : List (Fin 14 × BistResult)) (s : State) : Host.Outcome State Fault Refusal :=
  .next (s.main fun s => s.onSd fun s =>
    if s.sd.state = .selftest ∧ s.plat.bootStep = 8 ∧ s.bistComplete results = true then
      let ok := s.bistPasses results
      let t := (List.range 14).foldl (State.bistStartup results) s
      let t := if ok then t else t.enterSafe 3 0 t.sd.lastFrame
      { t with plat := { t.plat with bootStep := 9 } }
    else s)

end Sys2Proof.Machine
end

