-- ==== Sys2Proof/Machine/Access.lean ====
section
/-! DEFINITION. Accesses from outside a step: single register words (R10 to R14, R27), fabric transactions (R21 to R24), and host requests
through the BARs (R28). -/

namespace Sys2Proof.Machine

/-- R450: the requester can issue: an endpoint that exists, is out of reset and has its link up. -/
def State.canIssue (s : State) (r : Requester) : Bool :=
  match r with
  | .pcie e => (decide (e.val = 0) || s.bus.variant.isX2) && s.hostUp (e.val + 1)
  | _ => true

/-- A refused access: counted as a bus error (R21, R120) and reported to its requester. -/
def State.refuseAccess (s : State) (a : Nat) : State := (s.onBus (·.busErr)).emit (.busError a)

/-- R10 to R14: the register word at `a` read by `r`, `k` events coinciding with the clear of a counter. -/
def State.regRead (s : State) (r : Requester) (a k : Nat) : State :=
  s.main fun s =>
  if s.canIssue r = false then s
  else if s.bus.place a = .regs then
    let q := s.readWord r (s.bus.localAddr a) k
    q.2.emit (.readData r a (BitVec.ofNat 32 q.1))
  else s.refuseAccess a

/-- R10 to R14, R27: the register word at `a` written by `r`, with the writes that follow from it. -/
def State.regStore (s : State) (r : Requester) (a v now : Nat) : State :=
  s.main fun s =>
  if s.canIssue r = false then s
  else if s.bus.place a = .regs then (s.at now).regWrite r (s.bus.localAddr a) v now
  else s.refuseAccess a

/-- R12 REG64_READ_LOWER. -/
def execReg64ReadLower (r : Requester) (a : BitVec 40) (s : State) : Host.Outcome State Fault Refusal := .next (s.regRead r a.toNat 0)

/-- R12 REG64_READ_UPPER. -/
def execReg64ReadUpper (r : Requester) (a : BitVec 40) (s : State) : Host.Outcome State Fault Refusal := .next (s.regRead r a.toNat 0)

/-- R12 REG64_WRITE_UPPER. -/
def execReg64WriteUpper (r : Requester) (a : BitVec 40) (v : Word) (s : State) : Host.Outcome State Fault Refusal :=
  settled none (.next (s.regStore r a.toNat v.toNat s.now))

/-- R12 REG64_WRITE_LOWER. -/
def execReg64WriteLower (r : Requester) (a : BitVec 40) (v : Word) (now : Nat) (s : State) : Host.Outcome State Fault Refusal :=
  settled none (.next (s.regStore r a.toNat v.toNat now))

/-- R10 REGISTER_WRITE. -/
def execRegisterWrite (r : Requester) (a : BitVec 40) (v : Word) (now : Nat) (s : State) : Host.Outcome State Fault Refusal :=
  settled none (.next (s.regStore r a.toNat v.toNat now))

/-- R13 RC_READ. -/
def execRcRead (r : Requester) (a : BitVec 40) (coinciding : Nat) (s : State) : Host.Outcome State Fault Refusal :=
  .next (s.regRead r a.toNat coinciding)

/-- R14 UNMAPPED_ACCESS: a read, or a write of a word. -/
def execUnmappedAccess (r : Requester) (a : BitVec 40) (w : Option Word) (s : State) : Host.Outcome State Fault Refusal :=
  settled none (.next (match w with
    | none => s.regRead r a.toNat 0
    | some v => s.regStore r a.toNat v.toNat s.now))

/-- R27 SD_WINDOW_WRITE. -/
def execSdWindowWrite (r : Requester) (a : BitVec 40) (v : Word) (s : State) : Host.Outcome State Fault Refusal :=
  settled none (.next (s.regStore r a.toNat v.toNat s.now))

-- Fabric transactions (R21 to R24) -----------------------------------------------------------------------------------------------------------

/-- R24, R417, R418: a read of a peer's address sent as a READ, or refused where its port is not UP. -/
def State.readPeer (s : State) (d off a n : Nat) : State :=
  if s.bus.reach d then (s.kydRequest d (if inSync off then 1 else 3) 0x01 off false false false (leBytes 4 n) (some (.read a n))).1
  else (s.onBus (·.inc (kydB (match s.bus.topo.hop d with | some (k, _) => k | none => 0) + 0x120))).refuseAccess a

/-- R21: one read transaction of `n` bytes. -/
def State.readTx (s : State) (r : Requester) (a n : Nat) : State :=
  if s.bus.served a n = false then s.refuseAccess a
  else
    let l := s.bus.localAddr a
    match s.bus.place a with
    | .regs => (let q := s.readRegs r l n; q.2.emit (.memData a q.1 false))
    | .hbm => (s.onBus (·.hcAccess l n)).emit (.memData a (s.bus.rdN l n) (s.bus.poisoned l n))
    | .remote d off => s.readPeer d off a n
    | .nowhere => s.refuseAccess a
    | _ => s.emit (.memData a (s.bus.rdN l n) (s.bus.poisoned l n))

/-- R21, R23, R111: one write transaction. -/
def State.writeTx (s : State) (r : Requester) (a : Nat) (bs : List Byte) (src : WriteSrc) : State :=
  if s.bus.served a bs.length && decide (s.bus.place a = .regs) then s.writePieces r (s.bus.localAddr a) bs
  else
    let w := s.bus.writeTx r a bs src false false
    let s := { s with bus := w.1 }
    if w.2 = .done then s else s.emit (.busError a)

/-- R21: an access as transactions, each tested on its own. -/
def State.fabric (s : State) (r : Requester) (a : Nat) (op : FabOp) : State :=
  match op with
  | .read n => (lines (n / 64 + 2) a n).foldl (fun s t => s.readTx r t.1 t.2) s
  | .write bs src => (lines (bs.length / 64 + 2) a bs.length).foldl (fun s t => s.writeTx r t.1 (sub bs (t.1 - a) t.2) src) s

/-- R21 FABRIC_ACCESS. -/
def execFabricAccess (r : Requester) (a : BitVec 40) (op : FabOp) (s : State) : Host.Outcome State Fault Refusal :=
  settled none (.next (s.main fun s => if s.canIssue r then s.fabric r a.toNat op else s))

-- Host requests (R28) --------------------------------------------------------------------------------------------------------------------------

/-- R28: first device address and size of a BAR. -/
def barBase : Bar → Nat
  | .bar0 => 0x20000000
  | .bar2 => 0
def barSize : Bar → Nat
  | .bar0 => 0x10000000
  | .bar2 => 0x20000000

/-- The number of bytes that an operation touches. -/
def opLen : FabOp → Nat
  | .read n => n
  | .write bs _ => bs.length

/-- R112: a host's write is issued through no slot. -/
def opDirect : FabOp → FabOp
  | .read n => .read n
  | .write bs _ => .write bs .direct

/-- R28: every byte of the request lies in the BAR and at an address that R21 serves. -/
def State.barServed (s : State) (bar : Bar) (off n : Nat) : Bool :=
  decide (off + n ≤ barSize bar) && (lines (n / 64 + 2) (barBase bar + off) n).all (fun t => s.bus.served t.1 t.2)

/-- R28 HOST_BAR_ACCESS: served, or refused whole. -/
def execHostBarAccess (e : Fin 2) (bar : Bar) (off : Nat) (op : FabOp) (s : State) : Host.Outcome State Fault Refusal :=
  settled none (.next (s.main fun s =>
    if s.canIssue (.pcie e) = false then s
    else if s.barServed bar off (opLen op) then s.fabric (.pcie e) (barBase bar + off) (opDirect op)
    else s.emit (.unsupported e off)))

end Sys2Proof.Machine
end

