-- ==== Sys2Proof/Machine/CropResize.lean ====
section
/-! DEFINITION. The crop-and-resize engines (R224 to R230): CR_PROJECT and CR_CROP. Arithmetic is REAL32, each operation rounded once,
in the order written. -/

namespace Sys2Proof.Machine

abbrev f32 : Fmt := fmt32

/-- R227: a CRE operation of COP `op` in engine `c`. A format error of its operands is none: bus errors set BUS_ERR. -/
def creUnit (c op : Nat) (pre : StepEnv → List Nat) (accs : StepEnv → State → List Acc) (eff : StepEnv → State → Done) : UnitOp :=
  { sel := fun d => d.unit = 7 && bits d.op 11 8 = op
    ready := fun _ s => s.bus.flag (creB c) 0
    pre := fun e _ => pre e
    accs := accs
    eff := eff }

/-- The end of a CRE step: its reads, BUS_ERR, the fault codes. -/
def creDone (s : State) (c : Nat) (g : Eng) (codes : List Nat) : Done :=
  let codes := (if g.read then [0x11] else []) ++ codes
  if g.busErr then
    { s := { s with bus := g.bus.raise (creB c + 4) 31 }, reads := some g.reads, codes := codes ++ [0x08], signals := false }
  else
    { s := { s with bus := if g.landed = .busErr then g.bus.raise (creB c + 4) 31 else g.bus }, reads := some g.reads,
      codes := codes ++ g.landed.codes, signals := decide (g.landed = .done) && !(codes.any (fun k => faultClass k = .stop)) }

-- CR_PROJECT (R224 to R226) ----------------------------------------------------------------------------------------------------------

/-- R225: a camera as CR_PROJECT uses it: its pose and transform in m, its intrinsics, and its descriptor's flags. -/
structure CamView where
  pose : Rigid
  ext : Rigid
  tcam : Nat
  extrap : Bool
  fx : Nat
  fy : Nat
  cx : Nat
  cy : Nat
  k1 : Nat
  k2 : Nat
  w : Nat
  h : Nat
  znear : Nat
  flog : Nat
  deriving DecidableEq, Repr

/-- R234: CAM_GEOM[c] as `lb` holds it is usable. -/
def geomOk (lb : Bus) (c : Nat) : Bool :=
  let a := creB 0 + 0x100 + 0x40 * c
  let fl := lb.field (a + 0x1C) 3 0
  let nz (v : Nat) : Bool := v % 2 ^ 31 ≠ 0
  nz (lb.reg a) && nz (lb.reg (a + 4)) && decide (fl ≤ 5 ∧ lb.field (a + 0x18) 15 0 % 2 ^ fl = 0 ∧ lb.field (a + 0x18) 31 16 % 2 ^ fl = 0)

/-- R225 step 1: camera `c` of a step of frame `f`, from the 64 bytes of its descriptor; none where it is invalid. -/
def camView (lb : Bus) (f c : Nat) (bs : List Byte) : Option CamView :=
  let a := creB 0 + 0x100 + 0x40 * c
  if crc32c (sub bs 0 0x3C) ≠ fld bs 0x3C 4 ∨ fld bs 0 4 ≠ f % 2 ^ 32 ∨ bit (fld bs 4 4) 0 = false ∨ geomOk lb c = false then none
  else
    let w (i : Nat) : Int := sfld bs (0x18 + 4 * i) 4
    let x : Xform := { tx := w 0, ty := w 1, tz := w 2, qw := w 3, qx := w 4, qy := w 5, qz := w 6 }
    some { pose := x.pose.rigid f32 4000, ext := (lb.xform (activeAt (16 + c))).pose.rigid f32 4000, tcam := fld bs 8 8,
           extrap := bit (fld bs 4 4) 4, fx := lb.reg a, fy := lb.reg (a + 4), cx := lb.reg (a + 8), cy := lb.reg (a + 12),
           k1 := lb.reg (a + 16), k2 := lb.reg (a + 20), w := lb.field (a + 0x18) 15 0, h := lb.field (a + 0x18) 31 16,
           znear := lb.field (a + 0x1C) 31 16, flog := lb.field (a + 0x1C) 3 0 }

/-- R225 steps 2 and 3: the corners of a box in world coordinates, in m, its centre moved by `dt` ns. -/
def boxCorners (bs : List Byte) (dt : Int) : List V3 :=
  let t := fofRatio f32 dt 1000000000
  let cx := fadd f32 (fofRatio f32 (sfld bs 0 4) 4000) (fmul f32 (fofRatio f32 (sfld bs 0x14 2) 1000) t)
  let cy := fadd f32 (fofRatio f32 (sfld bs 4 4) 4000) (fmul f32 (fofRatio f32 (sfld bs 0x16 2) 1000) t)
  let cz := fofRatio f32 (sfld bs 8 4) 4000
  let yaw := fmul f32 (fofInt f32 (sfld bs 0x12 2)) angleUnit
  let c := cos32 yaw
  let s := sin32 yaw
  (List.range 8).map (fun i =>
    let half (o : Nat) (neg : Bool) : Nat := let v := fofRatio f32 (fld bs o 2) 2000; if neg then fneg f32 v else v
    let lx := half 0x0C (bit i 0)
    let ly := half 0x0E (bit i 1)
    { x := fadd f32 cx (fsub f32 (fmul f32 c lx) (fmul f32 s ly)), y := fadd f32 cy (fadd f32 (fmul f32 s lx) (fmul f32 c ly)),
      z := fadd f32 cz (half 0x10 (bit i 2)) })

/-- R225: what a box gives in a camera: nothing with a counter (2 BEHIND, 3 OUTSIDE), or the rectangle and depth. -/
def projectBox (v : CamView) (bs : List Byte) (tref : Nat) : Nat ⊕ (List Nat) :=
  let cs := (boxCorners bs ((v.tcam : Int) - tref)).map (fun p => v.ext.invApply f32 (v.pose.invApply f32 p))
  let zn := fofRatio f32 v.znear 1000
  if cs.any (fun p => flt f32 p.z zn) then .inl 2
  else
    let half := fofRatio f32 1 2
    let div := fofInt f32 (2 ^ v.flog)
    let px (k c a : Nat) (f : Nat) : Nat :=
      fsub f32 (fdiv f32 (fadd f32 (fadd f32 (fmul f32 (fmul f32 k f) a) c) half) div) half
    let pts := cs.map (fun p =>
      let a := fdiv f32 p.x p.z
      let b := fdiv f32 p.y p.z
      let r2 := fadd f32 (fmul f32 a a) (fmul f32 b b)
      let f := fadd f32 (fadd f32 (fofInt f32 1) (fmul f32 v.k1 r2)) (fmul f32 v.k2 (fmul f32 r2 r2))
      (px v.fx v.cx a f, px v.fy v.cy b f))
    let least (l : List Nat) : Nat := l.foldl (fun m x => if flt f32 x m then x else m) (l.headD 0)
    let most (l : List Nat) : Nat := l.foldl (fun m x => if flt f32 m x then x else m) (l.headD 0)
    let xs := pts.map (·.1)
    let ys := pts.map (·.2)
    let lim (n : Nat) : Nat := fsub f32 (fdiv f32 (fofInt f32 n) div) half
    let mh := fneg f32 half
    if fle f32 mh (most xs) && flt f32 (least xs) (lim v.w) && fle f32 mh (most ys) && flt f32 (least ys) (lim v.h) then
      .inr [least xs, least ys, most xs, most ys, least (cs.map (·.z))]
    else .inl 3

/-- R224: a region record. -/
def regionBytes (r : List Nat) (idx c : Nat) (extrap : Bool) : List Byte :=
  leBytes 4 (r.getD 0 0) ++ leBytes 4 (r.getD 1 0) ++ leBytes 4 (r.getD 2 0) ++ leBytes 4 (r.getD 3 0) ++ leBytes 4 idx ++ leBytes 1 c
    ++ leBytes 1 (1 + 2 * b2n extrap) ++ zeros 2 ++ leBytes 4 (r.getD 4 0) ++ zeros 4

/-- What a CR_PROJECT step has done: the engine's work, regions emitted, regions dropped. -/
structure Proj where
  g : Eng
  n : Nat := 0
  outCount : Nat := 0
  deriving DecidableEq, Repr

/-- R225, R226: one box, poisoned or not, in one camera; its region carries the poison of the two records it is computed from. -/
def projStep (c : Nat) (lb : Bus) (e : StepEnv) (tref : Nat) (box : List Byte) (bad : Bool) (q : Proj) (cam : Nat) : Proj :=
  let cnt (i : Nat) (g : Eng) : Eng := { g with bus := g.bus.inc (creB c + 0x800 + 4 * i) }
  let d := q.g.get (e.base 1 + 64 * cam) 64
  match camView lb e.x.frame cam d.1 with
  | none => { q with g := cnt 4 d.2 }
  | some v =>
    match projectBox v box tref with
    | .inl i => { q with g := cnt i d.2 }
    | .inr r =>
      if e.dim 2 ≤ q.n then { q with g := cnt 5 d.2, outCount := q.outCount + 1 }
      else
        let w := stepWrite e d.2.bus 2 (e.base 2 + 32 * q.n) (regionBytes r (fld box 0x18 4) cam v.extrap)
          (bad || e.x.taint || q.g.bus.tainted (e.base 1 + 64 * cam) 64)
        { q with g := cnt 1 { d.2 with bus := w.1, landed := d.2.landed.and w.2 }, n := q.n + 1 }

/-- R225: every box with VALID = 1, in list order, in each camera of the mask. -/
def projEff (c : Nat) (e : StepEnv) (s : State) : Done :=
  let lb := match s.intake.latch e.x.frame with | some l => s.bus.latched l | none => s.bus
  let tref := s.bus.tref e.x.frame
  let cams := (List.range 16).filter (fun i => bit (e.dim 1) i)
  let q := (List.range (e.dim 0)).foldl (fun (q : Proj) i =>
    let x := q.g.get (e.base 0 + 32 * i) 32
    if bit (fld x.1 0x1C 1) 0 then
      cams.foldl (projStep c lb e tref x.1 (q.g.bus.tainted (e.base 0 + 32 * i) 32)) { q with g := { x.2 with bus := x.2.bus.inc (creB c + 0x800) } }
    else { q with g := x.2 }) { g := { bus := s.bus } }
  let g := q.g.put e 3 (e.base 3) (leBytes 4 q.n)
  let g := if q.outCount = 0 then g else { g with bus := g.bus.raise (creB c + 4) 29 }
  let r := creDone s c g []
  if q.outCount = 0 then r else { r with s := r.s.degrade e.x.frame }

/-- R227: the operands of CR_PROJECT. -/
def projAccs (e : StepEnv) : List Acc :=
  [engAcc 0 false [(0, 32 * e.dim 0)], engAcc 1 false (((List.range 16).filter (fun i => bit (e.dim 1) i)).map (fun i => (64 * i, 64))),
   engAcc 2 true [(0, 32 * e.dim 2)], engAcc 3 true [(0, 4)]]

/-- R225 CR_PROJECT: what the step does. -/
def opCrProject (c : Fin 2) : UnitOp :=
  creUnit c.val 1 (fun e => if 8192 < e.dim 0 ∨ e.dim 2 < 1 ∨ 4096 < e.dim 2 then [0x0B] else [])
    (fun e _ => projAccs e) (projEff c.val)

/-- R225 CR_PROJECT. -/
def runCrProject (c : Fin 2) (p : Fin 2) (s : State) : Host.Outcome State Fault Refusal :=
  .next (runStep (.cre c) p (opCrProject c) s)

-- CR_CROP (R228 to R230) ---------------------------------------------------------------------------------------------------------------

/-- R227: sizes of the input and output elements, and the output format. -/
def cropInSize (d : StepD) : Nat := if bits d.op 7 6 = 2 then 2 else 1
def cropOutSize (d : StepD) : Nat := if bits d.op 5 4 = 0 then 1 else if bits d.op 5 4 = 1 then 2 else 4

/-- R229: an input element widened to FP32. -/
def cropIn (d : StepD) (v : Nat) : Nat :=
  if bits d.op 7 6 = 0 then fofInt f32 (sext 8 v) else if bits d.op 7 6 = 1 then fconv fmtE4M3 f32 v else fconv fmtBF16 f32 v

/-- R173, R229: a bin value converted to OUT. -/
def cropOut (d : StepD) (v : Nat) : List Byte :=
  if bits d.op 5 4 = 0 then leBytes 1 (fconv f32 fmtE4M3 v) else if bits d.op 5 4 = 1 then leBytes 2 (fconv f32 fmtBF16 v) else leBytes 4 v

/-- R228: an entry of the map table. -/
structure MapEnt where
  off : Nat
  hm : Nat
  wm : Nat
  border : Nat
  deriving DecidableEq, Repr

/-- R228. -/
def mapEnt (bs : List Byte) : MapEnt := { off := fld bs 0 4, hm := fld bs 4 2, wm := fld bs 6 2, border := bits (fld bs 8 1) 1 0 }

/-- R223, R228: the byte offset of element (y, x, ch) of a map from the start of EXT OPND1. -/
def mapOff (d : StepD) (m : MapEnt) (y x ch : Nat) : Nat :=
  let blk := if bit d.op 3 then 32 else 16
  let hp := m.hm + 2 * m.border
  let wp := m.wm + 2 * m.border
  64 * m.off + (((ch / blk * hp + (y + m.border)) * wp + (x + m.border)) * blk + ch % blk) * cropInSize d

/-- R229 steps 2 and 4: the sample coordinate along one axis: start, extent, bins, bin, samples, sample. -/
def sampleAt (start ext bins i g k : Nat) : Nat :=
  let half := fofRatio f32 1 2
  let u := fadd f32 (fofInt f32 i) (fdiv f32 (fadd f32 (fofInt f32 k) half) (fofInt f32 g))
  fadd f32 start (fdiv f32 (fmul f32 u ext) (fofInt f32 bins))

/-- R229 step 3: a sample outside the map on one axis of extent `n`. -/
def outsideAxis (y n : Nat) : Bool := flt f32 y (fofInt f32 (-1)) || flt f32 (fofInt f32 n) y

/-- R229 step 4: low and high elements and the two weights (low's distance, its complement) on one axis of extent `n`. -/
def clampAxis (y n : Nat) : Nat × Nat × Nat × Nat :=
  let y := if flt f32 y 0 then 0 else y
  let lo := ((fval f32 y).toIntFloor.getD 0).toNat
  if n - 1 ≤ lo then (n - 1, n - 1, 0, fofInt f32 1)
  else
    let l := fsub f32 y (fofInt f32 lo)
    (lo, lo + 1, l, fsub f32 (fofInt f32 1) l)

/-- What a crop has met: the engine's work, whether an element read poisoned, whether one lay outside its region. -/
structure CropQ where
  bus : Bus
  reads : List (Nat × Nat) := []
  /-- The 64-byte lines of the map read so far, each with whether the element was poisoned. -/
  seen : List (Nat × Bool) := []
  bad : Bool := false
  oob : Bool := false
  busErr : Bool := false
  deriving DecidableEq, Repr

/-- R228: one map element read and widened; a 64-byte line of the map is read once for a region. -/
def cropRead (e : StepEnv) (m : MapEnt) (q : CropQ) (y x ch : Nat) : Nat × CropQ :=
  let r := operandSlot e.x (e.d.opnd 4)
  let a := e.base 4 + mapOff e.d m y x ch
  let n := cropInSize e.d
  if a < r.base ∨ r.base + r.bytes < a + n then (0, { q with oob := true })
  else
    let g := q.bus.fetch a n
    let k := (a / 64, g.poisoned)
    let q := if q.seen.contains k then q else { q with seen := k :: q.seen, reads := (a, n) :: q.reads }
    (cropIn e.d (leNat g.bytes), { q with bad := q.bad || g.poisoned, busErr := q.busErr || g.busErr })

/-- R229 step 5: one sample's value in channel `ch`; coordinates that are no number give a free value. -/
def cropSample (e : StepEnv) (m : MapEnt) (q : CropQ) (y x ch : Nat) : Nat × CropQ :=
  if fisNan f32 y || fisNan f32 x then ((Config.freeWord q.bus.free).toNat, { q with bus := { q.bus with free := q.bus.free + 1 } })
  else if outsideAxis y m.hm || outsideAxis x m.wm then (0, q)
  else
    let cy := clampAxis y m.hm
    let cx := clampAxis x m.wm
    let a := cropRead e m q cy.1 cx.1 ch
    let b := cropRead e m a.2 cy.1 cx.2.1 ch
    let c := cropRead e m b.2 cy.2.1 cx.1 ch
    let d := cropRead e m c.2 cy.2.1 cx.2.1 ch
    let ly := cy.2.2.1
    let hy := cy.2.2.2
    let lx := cx.2.2.1
    let hx := cx.2.2.2
    let t (w1 w2 v : Nat) : Nat := fmul f32 (fmul f32 w1 w2) v
    (fadd f32 (fadd f32 (fadd f32 (t hy hx a.1) (t hy lx b.1)) (t ly hx c.1)) (t ly lx d.1), d.2)

/-- The samples of a bin: coordinates in row order. -/
def binSamples (r : List Nat) (oh ow g i j : Nat) : List (Nat × Nat) :=
  let one := fofInt f32 1
  let ext (a b : Nat) : Nat := let d := fsub f32 b a; if flt f32 d one then one else d
  let x0 := r.getD 0 0
  let y0 := r.getD 1 0
  let w := ext x0 (r.getD 2 0)
  let h := ext y0 (r.getD 3 0)
  (List.range g).flatMap (fun s => tab g (fun t => (sampleAt y0 h oh i g s, sampleAt x0 w ow j g t)))

/-- R229 step 6: one bin's value in channel `ch`. -/
def binValue (e : StepEnv) (m : MapEnt) (g : Nat) (sm : List (Nat × Nat)) (q : CropQ) (ch : Nat) : Nat × CropQ :=
  match sm with
  | [] => (0, q)
  | p :: ps =>
    let a := cropSample e m q p.1 p.2 ch
    let r := ps.foldl (fun (z : Nat × CropQ) p =>
      let v := cropSample e m z.2 p.1 p.2 ch
      (fadd f32 z.1 v.1, v.2)) a
    (fdiv f32 r.1 (fofInt f32 ((g * g : Nat) : Int)), r.2)

/-- R229, R230: region `r`: the crop and its status are written, and counted. -/
def cropRegion (c : Nat) (e : StepEnv) (z : Eng × List Nat) (r : Nat) : Eng × List Nat :=
  let cnt (b : Bus) (i : Nat) : Bus := b.inc (creB c + 0x800 + 4 * i)
  let oh := e.dim 1 / 256
  let ow := e.dim 1 % 256
  let ch := e.dim 2
  let gn := bits e.d.op 1 0 + 1
  let len := oh * ow * ch * cropOutSize e.d
  let stride := roundUp len 64
  let rec0 := z.1.bus.fetch (e.base 0 + 32 * r) 32
  let cam := fld rec0.bytes 0x14 1 % 16
  let ent0 := z.1.bus.fetch (e.base 1 + 16 * cam) 16
  let m := mapEnt ent0.bytes
  let err := z.1.busErr || rec0.busErr || ent0.busErr
  let reads := (e.base 0 + 32 * r, 32) :: (e.base 1 + 16 * cam, 16) :: z.1.reads
  let bad0 := rec0.poisoned || ent0.poisoned
  let put (b : Bus) (bs : List Byte) (bad : Bool) (st : Nat) : Eng :=
    let w := stepWrite e b 2 (e.base 2 + r * stride) bs (bad || e.x.taint)
    let v := stepWrite e w.1 3 (e.base 3 + 4 * r) (leBytes 4 st) e.x.taint
    { z.1 with bus := if bad then (cnt v.1 10).raise (creB c + 4) 30 else v.1, reads := reads, read := z.1.read || bad, busErr := err,
               landed := (z.1.landed.and w.2).and v.2 }
  if bit (fld rec0.bytes 0x15 1) 0 = false ∨ m.hm = 0 then
    (put (cnt z.1.bus 7) (zeros len) bad0 (1 + 8 * b2n bad0), z.2)
  else
    let rc := tab 4 (fun i => fld rec0.bytes (4 * i) 4)
    let bins := (List.range oh).flatMap (fun i => tab ow (fun j => binSamples rc oh ow gn i j))
    let outs := bins.flatten.map (fun p => outsideAxis p.1 m.hm || outsideAxis p.2 m.wm)
    let empty := outs.all id
    let part := outs.any id && !empty
    let q := bins.foldl (fun (a : List Byte × CropQ) sm =>
      (List.range ch).foldl (fun (a : List Byte × CropQ) k =>
        let v := binValue e m gn sm a.2 k
        (a.1 ++ cropOut e.d v.1, v.2)) a) (([], { bus := z.1.bus }) : List Byte × CropQ)
    if q.2.oob then
      ({ z.1 with bus := q.2.bus, reads := q.2.reads ++ reads, read := z.1.read || bad0 || q.2.bad, busErr := err }, z.2 ++ [0x03])
    else
      let bad := bad0 || q.2.bad
      let b := cnt q.2.bus 6
      let b := if empty then cnt b 8 else b
      let b := if part then cnt b 9 else b
      let g := put b q.1 bad (2 * b2n part + 4 * b2n empty + 8 * b2n bad)
      ({ g with busErr := err || q.2.busErr, reads := q.2.reads ++ g.reads }, z.2)

/-- R229: the regions in turn, until one reads outside its map's region. -/
def cropEff (c : Nat) (e : StepEnv) (s : State) : Done :=
  let z := (List.range (e.dim 0)).foldl (fun (z : Eng × List Nat) r =>
    if z.2.contains 0x03 then z else cropRegion c e z r) (({ bus := s.bus }, []) : Eng × List Nat)
  let oob := z.2.contains 0x03
  let g := if oob then { z.1 with bus := z.1.bus.note (unitUm e.u + 0x8210) (unitUm e.u + 0x8004) 29 } else z.1
  creDone s c g (if oob then [0x03] else [])

/-- R227: the operands of CR_CROP. -/
def cropAccs (e : StepEnv) : List Acc :=
  let z := roundUp (e.dim 1 / 256 * (e.dim 1 % 256) * e.dim 2 * cropOutSize e.d) 64
  [engAcc 0 false [(0, 32 * e.dim 0)], engAcc 1 false [(0, 256)], engAcc 2 true [(0, z * e.dim 0)], engAcc 3 true [(0, 4 * e.dim 0)],
   engAcc 4 false []]

/-- R229 CR_CROP: what the step does. -/
def opCrCrop (c : Fin 2) : UnitOp :=
  creUnit c.val 2 (fun e =>
      let oh := e.dim 1 / 256
      let ow := e.dim 1 % 256
      if 4096 < e.dim 0 ∨ oh < 1 ∨ 32 < oh ∨ ow < 1 ∨ 32 < ow ∨ e.dim 2 < 1 ∨ 256 < e.dim 2 then [0x0B] else [])
    (fun e _ => cropAccs e) (cropEff c.val)

/-- R229 CR_CROP. -/
def runCrCrop (c : Fin 2) (p : Fin 2) (s : State) : Host.Outcome State Fault Refusal :=
  .next (runStep (.cre c) p (opCrCrop c) s)

end Sys2Proof.Machine
end

