-- ==== Sys2Proof/Machine/Settle.lean ====
section
/-! DEFINITION. The commands that may write into register space or to a peer: the meaning of each, with the writes it left performed in the
same command (R21, R411), and, for a step of a task, the acknowledgements it waits for (R114). -/

namespace Sys2Proof.Machine

/-- R160: the accumulators of a chain that the step just performed has drained are free once no write of it waits for an answer; `pre` are
the answers that the task waited for before it. -/
def State.freeDrained (u : UnitId) (p : Fin 2) (pre : List Nat) (s : State) : State :=
  let waits := match s.ctx u p with | some y => (y.tags ++ y.owed).filter (fun t => !pre.contains t) | none => []
  match u with
  | .stn i =>
    (match (s.stn i.val).draining with
     | some [] => if waits = [] then s.holdAcc i.val none else s.setStn i.val { s.stn i.val with draining := some waits }
     | _ => s)
  | _ => s

/-- R114: a step has been performed and its writes are under way: where none waits for an answer its signals are given. -/
def State.afterStep (u : UnitId) (p : Fin 2) (pre : List Nat) (s : State) : State :=
  let s := s.freeDrained u p pre
  match s.ctx u p with
  | some y => if y.due.isSome && decide (y.tags = []) then s.endStep u p else s
  | none => s

/-- A step command of a unit's context: the step runs with the unit's view of the registers, the accesses it left are performed (R21,
R411), and its signals are given unless they wait for answers (R79, R114). -/
def taskStep (u : UnitId) (p : Fin 2) (run : State → Host.Outcome State Fault Refusal) (s : State) : Host.Outcome State Fault Refusal :=
  match s.live u p with
  | none => run s
  | some (x, _) =>
    match run (s.seenBy (.unit (unitNo u))) with
    | .next t =>
      .next ((({ t with bus := { t.bus with view := s.bus.view } } : State).settle (some (u, p)) 4).afterStep u p (x.tags ++ x.owed))
    | .fault f => .fault f
    | .refused r => .refused r

/-- R133 LOAD_DIM: the low DIM2 bits of the word at OPND0, through the narrow port, into loaded dim DIM1[1:0]; a value above
LOADED_MAX stops the task with DIM_EXCEEDS_PLAN. -/
def execLoadDim (u : UnitId) (x : DimRead) (s : State) : Host.Outcome State Fault Refusal := taskStep u x.p (runLoadDim u x.p x.dyn) s

/-- R176 ADD. -/
def execAdd (i : Fin 32) (p : Fin 2) (dyn : StepDyn) (s : State) : Host.Outcome State Fault Refusal :=
  taskStep (.stn i) p (runAdd i p dyn) s

/-- R176 SUB. -/
def execSub (i : Fin 32) (p : Fin 2) (dyn : StepDyn) (s : State) : Host.Outcome State Fault Refusal :=
  taskStep (.stn i) p (runSub i p dyn) s

/-- R176 MUL. -/
def execMul (i : Fin 32) (p : Fin 2) (dyn : StepDyn) (s : State) : Host.Outcome State Fault Refusal :=
  taskStep (.stn i) p (runMul i p dyn) s

/-- R176 MAX. -/
def execMax (i : Fin 32) (p : Fin 2) (dyn : StepDyn) (s : State) : Host.Outcome State Fault Refusal :=
  taskStep (.stn i) p (runMax i p dyn) s

/-- R176 MIN. -/
def execMin (i : Fin 32) (p : Fin 2) (dyn : StepDyn) (s : State) : Host.Outcome State Fault Refusal :=
  taskStep (.stn i) p (runMin i p dyn) s

/-- R176 MULADD. -/
def execMuladd (i : Fin 32) (p : Fin 2) (dyn : StepDyn) (s : State) : Host.Outcome State Fault Refusal :=
  taskStep (.stn i) p (runMuladd i p dyn) s

/-- R176 CVT. -/
def execCvt (i : Fin 32) (p : Fin 2) (dyn : StepDyn) (s : State) : Host.Outcome State Fault Refusal :=
  taskStep (.stn i) p (runCvt i p dyn) s

/-- R178 TAB. -/
def execTab (i : Fin 32) (p : Fin 2) (dyn : StepDyn) (s : State) : Host.Outcome State Fault Refusal :=
  taskStep (.stn i) p (runTab i p dyn) s

/-- R176 RSUM. -/
def execRsum (i : Fin 32) (p : Fin 2) (dyn : StepDyn) (s : State) : Host.Outcome State Fault Refusal :=
  taskStep (.stn i) p (runRsum i p dyn) s

/-- R176 RMAX. -/
def execRmax (i : Fin 32) (p : Fin 2) (dyn : StepDyn) (s : State) : Host.Outcome State Fault Refusal :=
  taskStep (.stn i) p (runRmax i p dyn) s

/-- R176 LSUM. -/
def execLsum (i : Fin 32) (p : Fin 2) (dyn : StepDyn) (s : State) : Host.Outcome State Fault Refusal :=
  taskStep (.stn i) p (runLsum i p dyn) s

/-- R176 PERM. -/
def execPerm (i : Fin 32) (p : Fin 2) (dyn : StepDyn) (s : State) : Host.Outcome State Fault Refusal :=
  taskStep (.stn i) p (runPerm i p dyn) s

/-- R179 SORT: 1 to 1,024 records. -/
def execSort (i : Fin 32) (p : Fin 2) (dyn : StepDyn) (s : State) : Host.Outcome State Fault Refusal :=
  taskStep (.stn i) p (runSort i p dyn) s

/-- R179 MERGE: two runs of at most 512 records each. -/
def execMerge (i : Fin 32) (p : Fin 2) (dyn : StepDyn) (s : State) : Host.Outcome State Fault Refusal :=
  taskStep (.stn i) p (runMerge i p dyn) s

/-- R156 MM. -/
def execMm (i : Fin 32) (p : Fin 2) (dyn : StepDyn) (s : State) : Host.Outcome State Fault Refusal :=
  taskStep (.stn i) p (runMm i p dyn) s

/-- R157 MMB. -/
def execMmb (i : Fin 32) (p : Fin 2) (dyn : StepDyn) (s : State) : Host.Outcome State Fault Refusal :=
  taskStep (.stn i) p (runMmb i p dyn) s

/-- R186 RB_CLEAR. -/
def execRbClear (q : Fin 4) (p : Fin 2) (s : State) : Host.Outcome State Fault Refusal :=
  taskStep (.rbe q) p (runRbClear q p) s

/-- R186 RB_INSERT. -/
def execRbInsert (q : Fin 4) (p : Fin 2) (s : State) : Host.Outcome State Fault Refusal :=
  taskStep (.rbe q) p (runRbInsert q p) s

/-- R187 RB_SUBM. -/
def execRbSubm (q : Fin 4) (p : Fin 2) (s : State) : Host.Outcome State Fault Refusal :=
  taskStep (.rbe q) p (runRbSubm q p) s

/-- R187 RB_MARK. -/
def execRbMark (q : Fin 4) (p : Fin 2) (s : State) : Host.Outcome State Fault Refusal :=
  taskStep (.rbe q) p (runRbMark q p) s

/-- R187 RB_COUNT. -/
def execRbCount (q : Fin 4) (p : Fin 2) (s : State) : Host.Outcome State Fault Refusal :=
  taskStep (.rbe q) p (runRbCount q p) s

/-- R187 RB_EMIT. -/
def execRbEmit (q : Fin 4) (p : Fin 2) (s : State) : Host.Outcome State Fault Refusal :=
  taskStep (.rbe q) p (runRbEmit q p) s

/-- R187 RB_STRIDED. -/
def execRbStrided (q : Fin 4) (p : Fin 2) (s : State) : Host.Outcome State Fault Refusal :=
  taskStep (.rbe q) p (runRbStrided q p) s

/-- R192 GATHER_ALIGNED. -/
def execGatherAligned (g : Fin 8) (p : Fin 2) (s : State) : Host.Outcome State Fault Refusal :=
  taskStep (.gme g) p (runGatherAligned g p) s

/-- R192 GATHER_COMPACT. -/
def execGatherCompact (g : Fin 8) (p : Fin 2) (s : State) : Host.Outcome State Fault Refusal :=
  taskStep (.gme g) p (runGatherCompact g p) s

/-- R200 GATHER_PACKED. -/
def execGatherPacked (g : Fin 8) (p : Fin 2) (s : State) : Host.Outcome State Fault Refusal :=
  taskStep (.gme g) p (runGatherPacked g p) s

/-- R194 SCATTER. -/
def execScatter (g : Fin 8) (p : Fin 2) (s : State) : Host.Outcome State Fault Refusal :=
  taskStep (.gme g) p (runScatter g p) s

/-- R195 DRAIN_ROWS. -/
def execDrainRows (g : Fin 8) (p : Fin 2) (s : State) : Host.Outcome State Fault Refusal :=
  taskStep (.gme g) p (runDrainRows g p) s

/-- R202 PACK_UNS. -/
def execPackUns (g : Fin 8) (p : Fin 2) (s : State) : Host.Outcome State Fault Refusal :=
  taskStep (.gme g) p (runPackUns g p) s

/-- R191, R205 COMPRESS; with MASK only while TRAIN_EN = 1. -/
def execCompress (g : Fin 8) (p : Fin 2) (s : State) : Host.Outcome State Fault Refusal :=
  taskStep (.gme g) p (runCompress g p) s

/-- R75 BS_LOOKUP. -/
def execBsLookup (q : Fin 4) (p : Fin 2) (s : State) : Host.Outcome State Fault Refusal :=
  taskStep (.bse q) p (runBsLookup q p) s

/-- R76 BS_WRITE. -/
def execBsWrite (q : Fin 4) (p : Fin 2) (s : State) : Host.Outcome State Fault Refusal :=
  taskStep (.bse q) p (runBsWrite q p) s

/-- R225 CR_PROJECT. -/
def execCrProject (c : Fin 2) (p : Fin 2) (s : State) : Host.Outcome State Fault Refusal :=
  taskStep (.cre c) p (runCrProject c p) s

/-- R229 CR_CROP. -/
def execCrCrop (c : Fin 2) (p : Fin 2) (s : State) : Host.Outcome State Fault Refusal :=
  taskStep (.cre c) p (runCrCrop c p) s

/-- R241 SM_MERGE. -/
def execSmMerge (p : Fin 2) (s : State) : Host.Outcome State Fault Refusal :=
  taskStep .sme p (runSmMerge p) s

/-- R238 SM_BOXES. -/
def execSmBoxes (p : Fin 2) (s : State) : Host.Outcome State Fault Refusal :=
  taskStep .sme p (runSmBoxes p) s

/-- R265 COPY. -/
def execDmaCopy (c : Fin 64) (p : Fin 2) (s : State) : Host.Outcome State Fault Refusal :=
  taskStep (.dma c) p (runDmaCopy c p) s

/-- R265, R266 GATHER: rows by source index. -/
def execDmaGather (c : Fin 64) (p : Fin 2) (s : State) : Host.Outcome State Fault Refusal :=
  taskStep (.dma c) p (runDmaGather c p) s

/-- R265, R266 SCATTER: rows by destination index. -/
def execDmaScatter (c : Fin 64) (p : Fin 2) (s : State) : Host.Outcome State Fault Refusal :=
  taskStep (.dma c) p (runDmaScatter c p) s

/-- R262, R265 DEINTERLEAVE. -/
def execDmaDeinterleave (c : Fin 64) (p : Fin 2) (s : State) : Host.Outcome State Fault Refusal :=
  taskStep (.dma c) p (runDmaDeinterleave c p) s

/-- R262, R265 INTERLEAVE. -/
def execDmaInterleave (c : Fin 64) (p : Fin 2) (s : State) : Host.Outcome State Fault Refusal :=
  taskStep (.dma c) p (runDmaInterleave c p) s

/-- R262, R265 BITPLANE. -/
def execDmaBitplane (c : Fin 64) (p : Fin 2) (s : State) : Host.Outcome State Fault Refusal :=
  taskStep (.dma c) p (runDmaBitplane c p) s

/-- R310 CL_ACCUM. -/
def execClAccum (p : Fin 2) (s : State) : Host.Outcome State Fault Refusal :=
  taskStep .cle p (runClAccum p) s

/-- R312 CL_SNAPSHOT. A step whose resolved DIM0 is 0 does not access memory (R129). -/
def execClSnapshot (p : Fin 2) (s : State) : Host.Outcome State Fault Refusal :=
  taskStep .cle p (runClSnapshot p) s

/-- R315 SUBMIT. -/
def execSubmit (s : State) : Host.Outcome State Fault Refusal :=
  settled none (runSubmit s)

/-- R286 ETH_FRAME_RX. -/
def execEthFrameRx (port : Fin 16) (frame : List Byte) (fcsOk : Bool) (raw : Nat) (mirrorFits : Bool) (burst now : Nat) (s : State) :
    Host.Outcome State Fault Refusal :=
  settled none (runEthFrameRx port frame fcsOk raw mirrorFits burst now s)

/-- R143 FRAME_RETIRE. -/
def execFrameRetire (p : Fin 2) (s : State) : Host.Outcome State Fault Refusal :=
  settled none (runFrameRetire p s)

/-- R145 RESYNC_DRAINED. -/
def execResyncDrained (now : Nat) (s : State) : Host.Outcome State Fault Refusal :=
  settled none (runResyncDrained now s)

/-- R139 TASK_ADMIT. -/
def execTaskAdmit (t : Nat) (p : Fin 2) (s : State) : Host.Outcome State Fault Refusal :=
  settled none (runTaskAdmit t p s)

/-- R46: closing resumes once RELEASE_SYNC[p] reaches the count of frames published from bank `p`. -/
def execBankReleased (p : Fin 2) (s : State) : Host.Outcome State Fault Refusal :=
  settled none (runBankReleased p s)

/-- R46: the clear of bank `p`'s directory completes; a closing that waited for it resumes. -/
def execDirectoryClearDone (p : Fin 2) (s : State) : Host.Outcome State Fault Refusal :=
  settled none (runDirectoryClearDone p s)

/-- R43 SLICE_CLOSE. -/
def execSliceClose (now : Nat) (s : State) : Host.Outcome State Fault Refusal :=
  settled none (runSliceClose now s)

/-- R49: the pose wait of a closing slice (or of P_ref, R333, or of a camera frame, R217) ends, and the rows are tested again. -/
def execPoseWaitExpiry (now : Nat) (s : State) : Host.Outcome State Fault Refusal :=
  settled none (runPoseWaitExpiry now s)

/-- R48 POSE_COMMIT: a write of the word at POSE_IN + 0x2C. -/
def execPoseCommit (crc : Word) (s : State) : Host.Outcome State Fault Refusal :=
  settled none (runPoseCommit crc s)

/-- R215 CSI_FRAME_START. -/
def execCsiFrameStart (d : Fin 2) (rx : Fin 8) (h : CsiHeader) (seq : BitVec 16) (now : Nat) (s : State) :
    Host.Outcome State Fault Refusal :=
  settled none (runCsiFrameStart d rx h.vc seq h.ecc now s)

/-- R212 CSI_LINE. -/
def execCsiLine (d : Fin 2) (rx : Fin 8) (vc : Fin 4) (dt : Byte) (payload : List Byte) (hdr : HdrEcc) (crcOk : Bool) (s : State) :
    Host.Outcome State Fault Refusal :=
  settled none (runCsiLine d rx vc dt payload hdr crcOk s)

/-- R217 CSI_FRAME_END. -/
def execCsiFrameEnd (d : Fin 2) (rx : Fin 8) (h : CsiHeader) (now : Nat) (s : State) : Host.Outcome State Fault Refusal :=
  settled none (runCsiFrameEnd d rx h.vc h.ecc now s)

/-- R216 CAM_PUBLISH: the window has closed and every camera frame written for it has ended and has its pose. -/
def execCamPublish (d : Fin 2) (now : Nat) (s : State) : Host.Outcome State Fault Refusal :=
  settled none (runCamPublish d now s)

/-- R216 CAM_GRACE_EXPIRY. -/
def execCamGraceExpiry (d : Fin 2) (now : Nat) (s : State) : Host.Outcome State Fault Refusal :=
  settled none (runCamGraceExpiry d now s)

/-- R214 CAMERA_WINDOW_OPEN: at t_ref − T_f − CAM_LEAD the camera registers are latched for frame `f`. While the
front end is disabled nothing is published, and only the newest window is kept. -/
def execCameraWindowOpen (d : Fin 2) (f now : Nat) (s : State) : Host.Outcome State Fault Refusal :=
  settled none (runCameraWindowOpen d f now s)

/-- R249 BATCH_COMMIT: at the later of verdict and last record. -/
def execBatchCommit (f now : Nat) (s : State) : Host.Outcome State Fault Refusal :=
  settled none (runBatchCommit f now s)

/-- R254 RING_COPY. -/
def execRingCopy (e : Fin 2) (f : Nat) (s : State) : Host.Outcome State Fault Refusal :=
  settled none (runRingCopy e f s)

/-- R267 DMA_LINE_WRITE. -/
def execDmaLineWrite (c : Fin 64) (s : State) : Host.Outcome State Fault Refusal :=
  match runDmaLineWrite c (s.seenBy (dmaReq (c.val / 16))) with
  | .next t => settled none (.next { t with bus := { t.bus with view := s.bus.view } })
  | .fault f => .fault f
  | .refused r => .refused r

/-- R345 RECOVER. -/
def execRecover (src : Source) (s : State) : Host.Outcome State Fault Refusal :=
  settled none (runRecover src s)

/-- R354 INJECTION_SWEEP: the sweep has run; `failing` names the rows that did not respond as required. -/
def execInjectionSweep (failing : List (Fin 11)) (now : Nat) (s : State) : Host.Outcome State Fault Refusal :=
  settled none (runInjectionSweep failing now s)

/-- R357 SWEEP_OVERRUN: the sweep has taken `elapsed` ns. -/
def execSweepOverrun (elapsed : Nat) (s : State) : Host.Outcome State Fault Refusal :=
  settled none (runSweepOverrun elapsed s)

/-- R451 step 8, R461 STARTUP_BIST_DONE: the sweep follows, or SAFE with CAUSE 0x03. -/
def execStartupBistDone (results : List (Fin 14 × BistResult)) (s : State) : Host.Outcome State Fault Refusal :=
  settled none (runStartupBistDone results s)

/-- R396 SDO_DOWNLOAD. -/
def execSdoDownload (c : Fin 2) (req : List Byte) (now : Nat) (s : State) : Host.Outcome State Fault Refusal :=
  settled none (runSdoDownload c req now s)

/-- R396 SDO_UPLOAD. -/
def execSdoUpload (c : Fin 2) (req : List Byte) (now : Nat) (s : State) : Host.Outcome State Fault Refusal :=
  settled none (runSdoUpload c req now s)

/-- R396 SDO_SEGMENT. -/
def execSdoSegment (c : Fin 2) (req : List Byte) (now : Nat) (s : State) : Host.Outcome State Fault Refusal :=
  settled none (runSdoSegment c req now s)

/-- R396 SDO_ABORT. -/
def execSdoAbort (c : Fin 2) (req : List Byte) (s : State) : Host.Outcome State Fault Refusal :=
  settled none (runSdoAbort c req s)

/-- R397 QMP_READ over UDP. -/
def execQmpRead (peer : UdpFrom) (msg : List Byte) (now : Nat) (s : State) : Host.Outcome State Fault Refusal :=
  settled none (runQmpRead peer msg now s)

/-- R397 QMP_WRITE over UDP. -/
def execQmpWrite (peer : UdpFrom) (msg : List Byte) (now : Nat) (s : State) : Host.Outcome State Fault Refusal :=
  settled none (runQmpWrite peer msg now s)

/-- R398 MBX_GO. -/
def execMbxGo (now : Nat) (s : State) : Host.Outcome State Fault Refusal :=
  settled none (runMbxGo now s)

/-- R420 KYD_QMP: a request in one packet served as the Kydor peer's; a response is the firmware's own. -/
def execKydQmp (k : Fin 4) (m : KydPkt) (now : Nat) (s : State) : Host.Outcome State Fault Refusal :=
  settled none (runKydQmp k m now s)

end Sys2Proof.Machine
end

