-- ==== Sys2Proof/Machine/Dispatch.lean ====
section
/-! DEFINITION. The dispatch of a command to its meaning, in the order of the opcode table. -/

namespace Sys2Proof.Machine

/-- What a command does to everything but the queue. -/
def exec (i : Instr) (s : State) : Host.Outcome State Fault Refusal :=
  match i with
  | .reg64ReadLower r a => Sys2Proof.Machine.execReg64ReadLower r a s
  | .reg64ReadUpper r a => Sys2Proof.Machine.execReg64ReadUpper r a s
  | .reg64WriteUpper r a v => Sys2Proof.Machine.execReg64WriteUpper r a v s
  | .reg64WriteLower r a v now => Sys2Proof.Machine.execReg64WriteLower r a v now s
  | .registerWrite r a v now => Sys2Proof.Machine.execRegisterWrite r a v now s
  | .rcRead r a coinciding => Sys2Proof.Machine.execRcRead r a coinciding s
  | .unmappedAccess r a w => Sys2Proof.Machine.execUnmappedAccess r a w s
  | .fabricAccess r a op => Sys2Proof.Machine.execFabricAccess r a op s
  | .hostBarAccess e bar off op => Sys2Proof.Machine.execHostBarAccess e bar off op s
  | .sdWindowWrite r a v => Sys2Proof.Machine.execSdWindowWrite r a v s
  | .ethFrameRx port frame fcsOk raw mirrorFits burst now => Sys2Proof.Machine.execEthFrameRx port frame fcsOk raw mirrorFits burst now s
  | .frameWindowOpen f now => Sys2Proof.Machine.execFrameWindowOpen f now s
  | .sliceClose now => Sys2Proof.Machine.execSliceClose now s
  | .poseWaitExpiry now => Sys2Proof.Machine.execPoseWaitExpiry now s
  | .bankReleased p => Sys2Proof.Machine.execBankReleased p s
  | .directoryClearDone p => Sys2Proof.Machine.execDirectoryClearDone p s
  | .poseCommit crc => Sys2Proof.Machine.execPoseCommit crc s
  | .sieEnable d now => Sys2Proof.Machine.execSieEnable d now s
  | .sieDisable d flush => Sys2Proof.Machine.execSieDisable d flush s
  | .flush d => Sys2Proof.Machine.execFlush d s
  | .bsLookup q p => Sys2Proof.Machine.execBsLookup q p s
  | .bsWrite q p => Sys2Proof.Machine.execBsWrite q p s
  | .newEpoch => Sys2Proof.Machine.execNewEpoch s
  | .hsClear => Sys2Proof.Machine.execHsClear s
  | .hsClearDone => Sys2Proof.Machine.execHsClearDone s
  | .hsEn v => Sys2Proof.Machine.execHsEn v s
  | .hsCfgWrite w => Sys2Proof.Machine.execHsCfgWrite w s
  | .fabForce um waited => Sys2Proof.Machine.execFabForce um waited s
  | .agePromote arb waited => Sys2Proof.Machine.execAgePromote arb waited s
  | .syncAdd obj n => Sys2Proof.Machine.execSyncAdd obj n s
  | .syncSet obj n => Sys2Proof.Machine.execSyncSet obj n s
  | .umPortmapWrite um v => Sys2Proof.Machine.execUmPortmapWrite um v s
  | .load => Sys2Proof.Machine.execLoad s
  | .loadDone => Sys2Proof.Machine.execLoadDone s
  | .runSet now => Sys2Proof.Machine.execRunSet now s
  | .runClear => Sys2Proof.Machine.execRunClear s
  | .crcPass => Sys2Proof.Machine.execCrcPass s
  | .nop u p => Sys2Proof.Machine.execNop u p s
  | .loop u p => Sys2Proof.Machine.execLoop u p s
  | .endloop u p => Sys2Proof.Machine.execEndloop u p s
  | .claim u p => Sys2Proof.Machine.execClaim u p s
  | .claimEnd u p => Sys2Proof.Machine.execClaimEnd u p s
  | .loadDim u x => Sys2Proof.Machine.execLoadDim u x s
  | .signalN u p => Sys2Proof.Machine.execSignalN u p s
  | .frameOpen now => Sys2Proof.Machine.execFrameOpen now s
  | .taskAdmit t p => Sys2Proof.Machine.execTaskAdmit t p s
  | .taskComplete u p => Sys2Proof.Machine.execTaskComplete u p s
  | .frameRetire p => Sys2Proof.Machine.execFrameRetire p s
  | .stepOverrun u p cycles => Sys2Proof.Machine.execStepOverrun u p cycles s
  | .faultReport p task code unit step => Sys2Proof.Machine.execFaultReport p task code unit step s
  | .abandonTimeout p now => Sys2Proof.Machine.execAbandonTimeout p now s
  | .resyncDrained now => Sys2Proof.Machine.execResyncDrained now s
  | .histWriteReissue u p => Sys2Proof.Machine.execHistWriteReissue u p s
  | .bistWindowOpen now => Sys2Proof.Machine.execBistWindowOpen now s
  | .bistWindowEnd now => Sys2Proof.Machine.execBistWindowEnd now s
  | .bistOverdue now => Sys2Proof.Machine.execBistOverdue now s
  | .spareTestDone r now => Sys2Proof.Machine.execSpareTestDone r now s
  | .mm n p dyn => Sys2Proof.Machine.execMm n p dyn s
  | .mmb n p dyn => Sys2Proof.Machine.execMmb n p dyn s
  | .rampDown x => Sys2Proof.Machine.execRampDown x s
  | .add n p dyn => Sys2Proof.Machine.execAdd n p dyn s
  | .sub n p dyn => Sys2Proof.Machine.execSub n p dyn s
  | .mul n p dyn => Sys2Proof.Machine.execMul n p dyn s
  | .max n p dyn => Sys2Proof.Machine.execMax n p dyn s
  | .min n p dyn => Sys2Proof.Machine.execMin n p dyn s
  | .muladd n p dyn => Sys2Proof.Machine.execMuladd n p dyn s
  | .cvt n p dyn => Sys2Proof.Machine.execCvt n p dyn s
  | .tab n p dyn => Sys2Proof.Machine.execTab n p dyn s
  | .rsum n p dyn => Sys2Proof.Machine.execRsum n p dyn s
  | .rmax n p dyn => Sys2Proof.Machine.execRmax n p dyn s
  | .lsum n p dyn => Sys2Proof.Machine.execLsum n p dyn s
  | .perm n p dyn => Sys2Proof.Machine.execPerm n p dyn s
  | .sort n p dyn => Sys2Proof.Machine.execSort n p dyn s
  | .merge n p dyn => Sys2Proof.Machine.execMerge n p dyn s
  | .rbClear q p => Sys2Proof.Machine.execRbClear q p s
  | .rbInsert q p => Sys2Proof.Machine.execRbInsert q p s
  | .rbSubm q p => Sys2Proof.Machine.execRbSubm q p s
  | .rbMark q p => Sys2Proof.Machine.execRbMark q p s
  | .rbCount q p => Sys2Proof.Machine.execRbCount q p s
  | .rbEmit q p => Sys2Proof.Machine.execRbEmit q p s
  | .rbStrided q p => Sys2Proof.Machine.execRbStrided q p s
  | .gatherAligned g p => Sys2Proof.Machine.execGatherAligned g p s
  | .gatherCompact g p => Sys2Proof.Machine.execGatherCompact g p s
  | .gatherPacked g p => Sys2Proof.Machine.execGatherPacked g p s
  | .scatter g p => Sys2Proof.Machine.execScatter g p s
  | .drainRows g p => Sys2Proof.Machine.execDrainRows g p s
  | .packUns g p => Sys2Proof.Machine.execPackUns g p s
  | .compress g p => Sys2Proof.Machine.execCompress g p s
  | .trainEn g v => Sys2Proof.Machine.execTrainEn g v s
  | .csiFrameStart d rx h seq now => Sys2Proof.Machine.execCsiFrameStart d rx h seq now s
  | .csiLine d rx vc dt payload hdr crcOk => Sys2Proof.Machine.execCsiLine d rx vc dt payload hdr crcOk s
  | .csiFrameEnd d rx h now => Sys2Proof.Machine.execCsiFrameEnd d rx h now s
  | .camPublish d now => Sys2Proof.Machine.execCamPublish d now s
  | .camGraceExpiry d now => Sys2Proof.Machine.execCamGraceExpiry d now s
  | .crProject c p => Sys2Proof.Machine.execCrProject c p s
  | .crCrop c p => Sys2Proof.Machine.execCrCrop c p s
  | .smMerge p => Sys2Proof.Machine.execSmMerge p s
  | .smBoxes p => Sys2Proof.Machine.execSmBoxes p s
  | .verdictReceived v => Sys2Proof.Machine.execVerdictReceived v s
  | .batchCommit f now => Sys2Proof.Machine.execBatchCommit f now s
  | .ringCopy e f => Sys2Proof.Machine.execRingCopy e f s
  | .consIdxWrite e v => Sys2Proof.Machine.execConsIdxWrite e v s
  | .dmaStart c => Sys2Proof.Machine.execDmaStart c s
  | .dmaLineWrite c => Sys2Proof.Machine.execDmaLineWrite c s
  | .paceResume c => Sys2Proof.Machine.execPaceResume c s
  | .lapEnd c => Sys2Proof.Machine.execLapEnd c s
  | .dmaPause c => Sys2Proof.Machine.execDmaPause c s
  | .dmaPaused c => Sys2Proof.Machine.execDmaPaused c s
  | .dmaResume c => Sys2Proof.Machine.execDmaResume c s
  | .dmaAbort c => Sys2Proof.Machine.execDmaAbort c s
  | .dmaStopped c => Sys2Proof.Machine.execDmaStopped c s
  | .dmaFence c => Sys2Proof.Machine.execDmaFence c s
  | .fenced c => Sys2Proof.Machine.execFenced c s
  | .dmaError c code write addr => Sys2Proof.Machine.execDmaError c code write addr s
  | .dmaCopy c p => Sys2Proof.Machine.execDmaCopy c p s
  | .dmaGather c p => Sys2Proof.Machine.execDmaGather c p s
  | .dmaScatter c p => Sys2Proof.Machine.execDmaScatter c p s
  | .dmaDeinterleave c p => Sys2Proof.Machine.execDmaDeinterleave c p s
  | .dmaInterleave c p => Sys2Proof.Machine.execDmaInterleave c p s
  | .dmaBitplane c p => Sys2Proof.Machine.execDmaBitplane c p s
  | .timeAlign now => Sys2Proof.Machine.execTimeAlign now s
  | .timeSet v => Sys2Proof.Machine.execTimeSet v s
  | .ptpSync m now => Sys2Proof.Machine.execPtpSync m now s
  | .ptpFollowUp m now => Sys2Proof.Machine.execPtpFollowUp m now s
  | .servoEn v => Sys2Proof.Machine.execServoEn v s
  | .servoReset => Sys2Proof.Machine.execServoReset s
  | .syncTimeout now => Sys2Proof.Machine.execSyncTimeout now s
  | .holdoverAlarm now => Sys2Proof.Machine.execHoldoverAlarm now s
  | .ethFrameTx port q fw now => Sys2Proof.Machine.execEthFrameTx port q fw now s
  | .configChange port now => Sys2Proof.Machine.execConfigChange port now s
  | .gateListSwap port now => Sys2Proof.Machine.execGateListSwap port now s
  | .gateIntervalEnd port now => Sys2Proof.Machine.execGateIntervalEnd port now s
  | .txStampPop r port => Sys2Proof.Machine.execTxStampPop r port s
  | .macAging d mac now => Sys2Proof.Machine.execMacAging d mac now s
  | .ethLinkChange port up speed => Sys2Proof.Machine.execEthLinkChange port up speed s
  | .clAccum p => Sys2Proof.Machine.execClAccum p s
  | .clSnapshot p => Sys2Proof.Machine.execClSnapshot p s
  | .submit => Sys2Proof.Machine.execSubmit s
  | .apply => Sys2Proof.Machine.execApply s
  | .calFlashWritten now => Sys2Proof.Machine.execCalFlashWritten now s
  | .withdraw => Sys2Proof.Machine.execWithdraw s
  | .mirrorCopy port frame stamp drops now => Sys2Proof.Machine.execMirrorCopy port frame stamp drops now s
  | .gridClose f now => Sys2Proof.Machine.execGridClose f now s
  | .checkerNetworkDone f net => Sys2Proof.Machine.execCheckerNetworkDone f net s
  | .boxRecord f bytes => Sys2Proof.Machine.execBoxRecord f bytes s
  | .endMark f now => Sys2Proof.Machine.execEndMark f now s
  | .verdictIssue f now => Sys2Proof.Machine.execVerdictIssue f now s
  | .deadlineExpiry f now => Sys2Proof.Machine.execDeadlineExpiry f now s
  | .lockstepMismatch => Sys2Proof.Machine.execLockstepMismatch s
  | .readbackDiscrepancy outB duration => Sys2Proof.Machine.execReadbackDiscrepancy outB duration s
  | .testPulse outB now => Sys2Proof.Machine.execTestPulse outB now s
  | .cyclic now => Sys2Proof.Machine.execCyclic now s
  | .injectionSweep failing now => Sys2Proof.Machine.execInjectionSweep failing now s
  | .sweepOverrun elapsed => Sys2Proof.Machine.execSweepOverrun elapsed s
  | .armFrameWaitTimeout now => Sys2Proof.Machine.execArmFrameWaitTimeout now s
  | .tokenStart mon f now => Sys2Proof.Machine.execTokenStart mon f now s
  | .tokenEnd mon f zero now => Sys2Proof.Machine.execTokenEnd mon f zero now s
  | .tokenRestart mon f now => Sys2Proof.Machine.execTokenRestart mon f now s
  | .tokenAbandon f => Sys2Proof.Machine.execTokenAbandon f s
  | .execMaxExpiry mon f now => Sys2Proof.Machine.execExecMaxExpiry mon f now s
  | .startLatestExpiry mon f now => Sys2Proof.Machine.execStartLatestExpiry mon f now s
  | .frameToken f tref => Sys2Proof.Machine.execFrameToken f tref s
  | .bistToken n k now => Sys2Proof.Machine.execBistToken n k now s
  | .stationTestOverdue n now => Sys2Proof.Machine.execStationTestOverdue n now s
  | .safeParamCheck => Sys2Proof.Machine.execSafeParamCheck s
  | .sdSramError bank poll => Sys2Proof.Machine.execSdSramError bank poll s
  | .commission src => Sys2Proof.Machine.execCommission src s
  | .endCommission src => Sys2Proof.Machine.execEndCommission src s
  | .arm src now => Sys2Proof.Machine.execArm src now s
  | .disarm src => Sys2Proof.Machine.execDisarm src s
  | .start src => Sys2Proof.Machine.execStart src s
  | .stop src => Sys2Proof.Machine.execStop src s
  | .safeStop src => Sys2Proof.Machine.execSafeStop src s
  | .recover src => Sys2Proof.Machine.execRecover src s
  | .save src flashOk => Sys2Proof.Machine.execSave src flashOk s
  | .reset src => Sys2Proof.Machine.execReset src s
  | .calCommission src => Sys2Proof.Machine.execCalCommission src s
  | .modelSwitch src => Sys2Proof.Machine.execModelSwitch src s
  | .sdoDownload c req now => Sys2Proof.Machine.execSdoDownload c req now s
  | .sdoUpload c req now => Sys2Proof.Machine.execSdoUpload c req now s
  | .sdoSegment c req now => Sys2Proof.Machine.execSdoSegment c req now s
  | .sdoAbort c req => Sys2Proof.Machine.execSdoAbort c req s
  | .sdoTimeout c now => Sys2Proof.Machine.execSdoTimeout c now s
  | .qmpRead peer msg now => Sys2Proof.Machine.execQmpRead peer msg now s
  | .qmpWrite peer msg now => Sys2Proof.Machine.execQmpWrite peer msg now s
  | .mbxGo now => Sys2Proof.Machine.execMbxGo now s
  | .confirm src crc => Sys2Proof.Machine.execConfirm src crc s
  | .pendingDiscard now => Sys2Proof.Machine.execPendingDiscard now s
  | .aedImage src img => Sys2Proof.Machine.execAedImage src img s
  | .sdImage src img => Sys2Proof.Machine.execSdImage src img s
  | .secVersionRaise src => Sys2Proof.Machine.execSecVersionRaise src s
  | .kydRead k m => Sys2Proof.Machine.execKydRead k m s
  | .kydWrite k m => Sys2Proof.Machine.execKydWrite k m s
  | .kydSync k m => Sys2Proof.Machine.execKydSync k m s
  | .kydHsLookup k m => Sys2Proof.Machine.execKydHsLookup k m s
  | .kydHsWrite k m => Sys2Proof.Machine.execKydHsWrite k m s
  | .kydToken k m now => Sys2Proof.Machine.execKydToken k m now s
  | .kydRecord k f bytes last => Sys2Proof.Machine.execKydRecord k f bytes last s
  | .kydQmp k m now => Sys2Proof.Machine.execKydQmp k m now s
  | .kydCompletion k m => Sys2Proof.Machine.execKydCompletion k m s
  | .kydTransit k m => Sys2Proof.Machine.execKydTransit k m s
  | .kydNak k lseq => Sys2Proof.Machine.execKydNak k lseq s
  | .kydIdleTimeout k => Sys2Proof.Machine.execKydIdleTimeout k s
  | .kydLinkUp k peer => Sys2Proof.Machine.execKydLinkUp k peer s
  | .retrain k => Sys2Proof.Machine.execRetrain k s
  | .respTimeout tag => Sys2Proof.Machine.execRespTimeout tag s
  | .frameRelease f => Sys2Proof.Machine.execFrameRelease f s
  | .localVerdict dev f v => Sys2Proof.Machine.execLocalVerdict dev f v s
  | .systemVerdict f now => Sys2Proof.Machine.execSystemVerdict f now s
  | .pllUnlock => Sys2Proof.Machine.execPllUnlock s
  | .clockMonitorTrip x => Sys2Proof.Machine.execClockMonitorTrip x s
  | .sdClockFailure => Sys2Proof.Machine.execSdClockFailure s
  | .voltageFault rail samples => Sys2Proof.Machine.execVoltageFault rail samples s
  | .powerLimit src v => Sys2Proof.Machine.execPowerLimit src v s
  | .powerDutyStep power now => Sys2Proof.Machine.execPowerDutyStep power now s
  | .thermalDutyStep sensor tj now => Sys2Proof.Machine.execThermalDutyStep sensor tj now s
  | .hbmTempRead k t => Sys2Proof.Machine.execHbmTempRead k t s
  | .thermalTrip now => Sys2Proof.Machine.execThermalTrip now s
  | .shdn now => Sys2Proof.Machine.execShdn now s
  | .sdPgRise testMode => Sys2Proof.Machine.execSdPgRise testMode s
  | .mainPgRise => Sys2Proof.Machine.execMainPgRise s
  | .mainPgFall => Sys2Proof.Machine.execMainPgFall s
  | .mainPgTimeout => Sys2Proof.Machine.execMainPgTimeout s
  | .pllLockTimeout => Sys2Proof.Machine.execPllLockTimeout s
  | .aedbaodRunning => Sys2Proof.Machine.execAedbaodRunning s
  | .hbmTrainingDone failed => Sys2Proof.Machine.execHbmTrainingDone failed s
  | .startupBistDone results => Sys2Proof.Machine.execStartupBistDone results s
  | .resetN lowNs => Sys2Proof.Machine.execResetN lowNs s
  | .perstN d low => Sys2Proof.Machine.execPerstN d low s
  | .pcieHotReset d => Sys2Proof.Machine.execPcieHotReset d s
  | .bistStart src v => Sys2Proof.Machine.execBistStart src v s
  | .bistUnitDone u r now => Sys2Proof.Machine.execBistUnitDone u r now s
  | .bypass die tdi => Sys2Proof.Machine.execBypass die tdi s
  | .idcode die => Sys2Proof.Machine.execIdcode die s
  | .samplePreload die pins preload => Sys2Proof.Machine.execSamplePreload die pins preload s
  | .extest die pins => Sys2Proof.Machine.execExtest die pins s
  | .highz die => Sys2Proof.Machine.execHighz die s
  | .clamp die => Sys2Proof.Machine.execClamp die s
  | .extestPulse die lanes => Sys2Proof.Machine.execExtestPulse die lanes s
  | .extestTrain die lanes => Sys2Proof.Machine.execExtestTrain die lanes s
  | .trstN => Sys2Proof.Machine.execTrstN s
  | .pllLock => Sys2Proof.Machine.execPllLock s
  | .noAedbaodSlotAccepted => Sys2Proof.Machine.execNoAedbaodSlotAccepted s
  | .juneshaRailLost => Sys2Proof.Machine.execJuneshaRailLost s
  | .pcsLockLost k => Sys2Proof.Machine.execPcsLockLost k s
  | .pcieLinkDown e down => Sys2Proof.Machine.execPcieLinkDown e down s
  | .cameraWindowOpen d f now => Sys2Proof.Machine.execCameraWindowOpen d f now s

end Sys2Proof.Machine
end

