-- ==== Sys2Proof/Machine/Step.lean ====
section
/-! DEFINITION. One step: the command at the front of the queue is taken and performed; on an empty queue the time-engine clock ticks. -/

namespace Sys2Proof.Machine

/-- DESIGN CHOICE: with no command waiting, one cycle of the 500 MHz time-engine clock passes (R276), in which a random fault of the
hardware may strike. -/
def State.idle (s : State) : State := { s with net := s.net.tick }.upsets

/-- R399: the oldest waiting command is performed. -/
def step (s : State) : Host.Outcome State Fault Refusal :=
  match s.pending with
  | [] => .next s.idle
  | c :: cs => exec c { s with pending := cs }

/-- The command that a word spells put in front of the queue; no word spells one. -/
def State.withFetchWord (s : State) (nbits w : Nat) : State :=
  match Sys2Proof.decodeTableWord nbits w with
  | some c => { s with pending := c :: s.pending }
  | none => s

end Sys2Proof.Machine
end

