-- ==== Sys2Proof/Safety.lean ====
section
/-! DEFINITION. What claims call a sound state and a safe run. -/

namespace Sys2Proof.Machine

/-- The register file is canonical: addresses rising, no word listed at its reset value. -/
def RegFile.wf (l : RegFile) : Bool := scanon (fun a => regReset a) none l

/-- Every memory and the register file are canonical, so that equal contents are equal data. -/
def Bus.wf (b : Bus) : Bool := Mem.wf b.mem && Mem.wf b.host0 && Mem.wf b.host1 && RegFile.wf b.regs

/-- R346: the outputs are energised only in RUN, with no safe state latched. -/
def State.outputsSound (s : State) : Prop := (s.sd.safeA = true ∨ s.sd.safeB = true) → s.sd.state = .run ∧ s.sd.latched = false

/-- R342, R347: both outputs low. -/
def State.deEnergised (s : State) : Prop := s.sd.safeA = false ∧ s.sd.safeB = false

/-- R407, R452, R456: start-up has stopped in BOOT with a BOOT_CODE, the main dies are held in reset, the outputs are low. -/
def State.stoppedInBoot (s : State) : Prop :=
  s.sd.state = .boot ∧ s.plat.bootStopped = true ∧ s.plat.mainHeld = true ∧ s.deEnergised

/-- No step of the run from `s` by the commands `cs` stops it, and every state on the way is sound. -/
def State.safeRun (s : State) : List Instr → Prop
  | [] => s.outputsSound
  | c :: cs =>
    s.outputsSound ∧ match exec c s with
      | .next t => t.safeRun cs
      | .fault _ => False
      | .refused _ => False

end Sys2Proof.Machine
end

