-- ==== Sys2Proof/Claims.lean ====
section
/-! DEFINITION. The words in which claims are stated: a command completes, a unit is up, what a command leaves as it was, and the
conditions under which a step issues. -/

namespace Sys2Proof.Machine

-- Completion and frames -------------------------------------------------------------------------------------------------------------------

/-- The command answers a next state, of which `P` holds. -/
def Completes (c : Instr) (s : State) (P : State → Prop) : Prop := ∃ t, exec c s = .next t ∧ P t

/-- R450: the main dies are out of reset, and the registers and memories are in their canonical form with no write of an earlier
command left over. -/
def State.up (s : State) : Prop := s.plat.mainHeld = false ∧ s.bus.wf = true ∧ s.bus.late = []

/-- R324, R443: the Junesha die runs. -/
def State.sdUp (s : State) : Prop := s.sd.halted = false ∧ s.sd.railLost = false

/-- Every byte of device memory reads as before. -/
def SameMem (s t : State) : Prop := ∀ a, t.bus.rd a = s.bus.rd a

/-- Every byte of device memory outside [a, a + n) reads as before. -/
def SameMemBut (s t : State) (a n : Nat) : Prop := ∀ x, (x < a ∨ a + n ≤ x) → t.bus.rd x = s.bus.rd x

/-- Every register word but those at `l` reads as before. -/
def SameRegsBut (s t : State) (l : List Nat) : Prop := ∀ a, a ∉ l → t.bus.reg a = s.bus.reg a

/-- [a, a + n) lies in unified memory or in HBM (R21), named by its local address. -/
def Bus.holds (b : Bus) (a n : Nat) : Prop := a + n ≤ 0x0A000000 ∨ (0x100000000 ≤ a ∧ a + n ≤ b.variant.hbmEnd)

/-- The counter at `a` has advanced by one, up to its saturation. -/
def Counted (s t : State) (a : Nat) : Prop := t.bus.reg a = Nat.min (s.bus.reg a + 1) 0xFFFFFFFF

/-- The parts of the state that come in fixed numbers: 32 stations, two camera front ends, sixteen sensor ports, 64 DMA channels, and a passing
test per station. -/
def State.complete (s : State) : Prop := s.stns.length = 32 ∧ s.cams.length = 2 ∧ s.net.ports.length = 16 ∧ s.dma.length = 64
  ∧ s.sd.stationPass.length = 32

/-- Nothing but the register words at `l` has changed. -/
def OnlyRegs (s t : State) (l : List Nat) : Prop :=
  t = { s with bus := { s.bus with regs := t.bus.regs } } ∧ SameRegsBut s t l

/-- Nothing but the register words at `l` and the outputs has changed. -/
def OnlyRegsOut (s t : State) (l : List Nat) : Prop :=
  t = { s with bus := { s.bus with regs := t.bus.regs, out := t.bus.out } } ∧ SameRegsBut s t l

/-- Nothing but the Junesha die's own state has changed. -/
def OnlySd (s t : State) : Prop := t = { s with sd := t.sd }

-- Register accesses (R10 to R14) -------------------------------------------------------------------------------------------------------------

/-- Requester `r` can issue and names a word of register space by `a`. -/
def State.reachesRegs (s : State) (r : Requester) (a : BitVec 40) : Prop :=
  s.up ∧ s.canIssue r = true ∧ s.bus.place a.toNat = .regs

/-- The address in register space that `a` names (R24). -/
def State.regAddr (s : State) (a : BitVec 40) : Nat := s.bus.localAddr a.toNat

/-- Blocks whose registers do nothing but hold bits when written: the others' chapters give some of their writes an action. -/
def Block.plain : Block → Bool
  | .rbe | .bse | .cam | .hbmc | .fab | .pwr | .mirr | .mgteth | .qspi => true
  | _ => false

/-- R85, R90: one access of the history cache has been counted, as a hit or as a miss, and no other register has changed. -/
def CacheCounted (s t : State) : Prop :=
  ((Counted s t (hcB + 0x400) ∧ t.bus.reg (hcB + 0x404) = s.bus.reg (hcB + 0x404))
    ∨ (Counted s t (hcB + 0x404) ∧ t.bus.reg (hcB + 0x400) = s.bus.reg (hcB + 0x400)))
  ∧ SameRegsBut s t [hcB + 0x400, hcB + 0x404]

/-- One transaction: `n` bytes at `a`, in one 64-byte line (R21). -/
def inLine (a n : Nat) : Prop := 0 < n ∧ a % 64 + n ≤ 64

-- Intake (R31 to R66) ------------------------------------------------------------------------------------------------------------------------

/-- The staged points of a ring that slice `j` of frame `f` does not take. -/
def notOfSlice (r : List StagedPt) (f j sliceNs : Nat) (start : Int) : List StagedPt := (takeSlice r f j sliceNs start).2

/-- R43, R46, R49: at `now` the slice that stands next is due, no bank holds it back, and the rows of R49 give `pose` for it. -/
def State.closable (s : State) (now : Nat) (l : Latch) (pose : PoseResult) : Prop :=
  let c := s.intake.cur
  let e := closeEnv s.bus l c.frame
  let a := s.bus.windowStart c.frame + (c.slice * l.sliceNs : Nat)
  let due := a + (l.sliceNs + e.lb.closeDelay : Nat)
  s.sieOn 0 = true ∧ s.intake.latch c.frame = some l ∧ due ≤ (now : Int)
  ∧ (c.slice = 0 → (if e.p = 0 then s.intake.clearing0 else s.intake.clearing1) = false
      ∧ s.bus.waitGe (e.lb.releaseSync e.p) (s.intake.published e.p) = true)
  ∧ s.poseFor e.lb (2 * a + (l.sliceNs : Nat)) (decide (due + e.lb.poseWait ≤ (now : Int))) = pose ∧ pose ≠ .wait

/-- R43, R44: what closing the next slice does whatever its points: they have left the staging rings, the other points stand there in
their order, and the SIE waits no longer. -/
def SliceTaken (s : State) (l : Latch) (t : State) : Prop :=
  let c := s.intake.cur
  let start := s.bus.windowStart c.frame
  t.intake.ring0 = notOfSlice s.intake.ring0 c.frame c.slice l.sliceNs start
  ∧ (s.sieOn 1 = true → t.intake.ring1 = notOfSlice s.intake.ring1 c.frame c.slice l.sliceNs start)
  ∧ (s.sieOn 1 = false → t.intake.ring1 = s.intake.ring1)
  ∧ t.intake.waiting = false ∧ t.intake.poses = s.intake.poses

-- Steps (R101 to R143) -----------------------------------------------------------------------------------------------------------------------

/-- R107, R131, R142: the next step of unit `u`'s context `p` is `d`, and it may issue now: its waits are satisfied, it is the unit's
turn, and no claim it uses is stale. -/
def State.readyStep (s : State) (u : UnitId) (p : Fin 2) (x : Ctx) (fr : OpenFrame) (d : StepD) : Prop :=
  s.up ∧ s.live u p = some (x, fr) ∧ fetchStep s.bus x x.step = some d ∧ waitsOk s.bus x fr d = true ∧ s.mayIssue u p = true
  ∧ staleClaim s.bus x d = none

/-- R133: a ready control step of operation `op`. -/
def State.readyControl (s : State) (op : Nat) (u : UnitId) (p : Fin 2) (x : Ctx) (fr : OpenFrame) (d : StepD) : Prop :=
  s.readyStep u p x fr d ∧ d.unit = 0 ∧ d.op = op

/-- R10, R12: the state as unit `u` finds it while a step of it runs: its reads of register words see their present values and its own
snapshots. -/
def State.seen (s : State) (u : UnitId) : State := s.seenBy (.unit (unitNo u))

/-- R143: the list moves past a step and its EXT. -/
def nextStep (x : Ctx) (d : StepD) : Nat := x.step + (if d.ext then 2 else 1)

/-- Context `p` of unit `u` stands at `y`, every other context as before; the registers and outputs are those of `b`; nothing else has
changed. -/
def CtxMoved (s : State) (u : UnitId) (p : Fin 2) (y : Ctx) (b : Bus) (t : State) : Prop :=
  t.ctx u p = some y ∧ (∀ k, k ≠ (u, p) → alook t.fseq.ctxs k = alook s.fseq.ctxs k)
  ∧ t.bus = { s.bus with regs := b.regs, out := b.out } ∧ t = { s with bus := t.bus, fseq := { s.fseq with ctxs := t.fseq.ctxs } }

/-- R101, R129, R114: the ready step `d` is one that `o` runs; it passes every check made at issue; its data path, from the state in which
its START token has been given, ends in `r` with no fault that stops the task. -/
def State.stepRuns (s : State) (o : UnitOp) (u : UnitId) (p : Fin 2) (x : Ctx) (fr : OpenFrame) (d : StepD) (r : Done) : Prop :=
  let v := s.seen u
  let e := stepEnv u x fr d
  let s1 := v.startTok u p x
  v.readyStep u p x fr d ∧ o.sel d = true ∧ o.ready e v = true ∧ o.pre e s1 = [] ∧ (e.dim 0 ≠ 0 ∨ o.runsAtZero = true)
  ∧ issueFaults e (o.accs e s1) = [] ∧ r = o.run e s1 ∧ (∀ c ∈ r.codes, faultClass c ≠ .stop) ∧ r.signals = true

/-- R21, R101, R144: what the data path leaves once its step is performed: its faults reported, and its accesses to register space and to
peers made. -/
def State.stepPerformed (s : State) (u : UnitId) (p : Fin 2) (x : Ctx) (d : StepD) (r : Done) : State :=
  State.settle (some (u, p)) 4
    (((r.s.stepDone u p x d).reports x.frame x.task (unitNo u) x.step none r.codes).onBus (fun b => { b with view := s.bus.view }))

/-- R114, R143: the step's effects have been performed; where it waits for no peer, its signals have been given and its list has moved past
it. -/
def StepRan (s : State) (u : UnitId) (p : Fin 2) (x : Ctx) (d : StepD) (r : Done) (t : State) : Prop :=
  let a := s.stepPerformed u p x d r
  t = a.afterStep u p (x.tags ++ x.owed)
  ∧ ∀ y, a.ctx u p = some y → y.tags = [] → y.due = some (d.signals, nextStep x d) →
    t.ctx u p = some { y with step := nextStep x d, due := none, told := [] }
    ∧ ∀ o, t.bus.count o = (doSignals (a.freeDrained u p (x.tags ++ x.owed)).bus y.frame 1 d.signals).count o

/-- The command runs its unit's ready step `d` by `o`, for every context, frame and step that meet the conditions. -/
def RunsStep (c : Instr) (s : State) (o : UnitOp) (u : UnitId) (p : Fin 2) : Prop :=
  ∀ x fr d r, s.stepRuns o u p x fr d r → Completes c s (StepRan s u p x d r)

/-- R127: every operation that runs through a unit's data path, with its command and its unit: the vector and matrix operations of station
`i`, those of the rulebook and backsight engines of quadrant `q`, of gather-and-merge engine `g`, of the crop-and-resize engine of camera
die `k`, of the select-and-merge engine, of DMA channel `c`, and of the calibration engine. -/
def stepUnits (i : Fin 32) (q : Fin 4) (g : Fin 8) (k : Fin 2) (c : Fin 64) (p : Fin 2) (dyn : StepDyn) : List (Instr × UnitOp × UnitId) :=
  [(.add i p dyn, opAdd i dyn, .stn i), (.sub i p dyn, opSub i dyn, .stn i), (.mul i p dyn, opMul i dyn, .stn i),
   (.max i p dyn, opMax i dyn, .stn i), (.min i p dyn, opMin i dyn, .stn i), (.muladd i p dyn, opMuladd i dyn, .stn i),
   (.cvt i p dyn, opCvt i dyn, .stn i), (.tab i p dyn, opTab i dyn, .stn i), (.rsum i p dyn, opRsum i dyn, .stn i),
   (.rmax i p dyn, opRmax i dyn, .stn i), (.lsum i p dyn, opLsum i dyn, .stn i), (.perm i p dyn, opPerm i dyn, .stn i),
   (.sort i p dyn, opSort i dyn, .stn i), (.merge i p dyn, opMerge i dyn, .stn i),
   (.mm i p dyn, mmUnit i.val p 1 dyn, .stn i), (.mmb i p dyn, mmUnit i.val p 2 dyn, .stn i),
   (.rbClear q p, opRbClear q, .rbe q), (.rbInsert q p, opRbInsert q, .rbe q), (.rbSubm q p, opRbSubm q, .rbe q),
   (.rbMark q p, opRbMark q, .rbe q), (.rbCount q p, opRbCount q, .rbe q), (.rbEmit q p, opRbEmit q, .rbe q),
   (.rbStrided q p, opRbStrided q, .rbe q),
   (.bsLookup q p, opBsLookup q p, .bse q), (.bsWrite q p, opBsWrite q p, .bse q),
   (.gatherAligned g p, opGatherAligned g, .gme g), (.gatherCompact g p, opGatherCompact g, .gme g),
   (.gatherPacked g p, opGatherPacked g, .gme g), (.scatter g p, opScatter g, .gme g), (.drainRows g p, opDrainRows g, .gme g),
   (.packUns g p, opPackUns g, .gme g), (.compress g p, opCompress g, .gme g),
   (.crProject k p, opCrProject k, .cre k), (.crCrop k p, opCrCrop k, .cre k),
   (.smMerge p, opSmMerge, .sme), (.smBoxes p, opSmBoxes, .sme),
   (.dmaCopy c p, dmaUnit c.val 1, .dma c), (.dmaGather c p, dmaUnit c.val 2, .dma c), (.dmaScatter c p, dmaUnit c.val 3, .dma c),
   (.dmaDeinterleave c p, dmaUnit c.val 4, .dma c), (.dmaInterleave c p, dmaUnit c.val 5, .dma c),
   (.dmaBitplane c p, dmaUnit c.val 6, .dma c), (.clAccum p, opClAccum, .cle), (.clSnapshot p, opClSnapshot, .cle)]

/-- R101, R129: the ready step `d`, its context waiting for no peer, is one that `o` runs and its plan checks pass; what remains is the check
of its operands. -/
def State.stepIssues (s : State) (o : UnitOp) (u : UnitId) (p : Fin 2) (x : Ctx) (fr : OpenFrame) (d : StepD) : Prop :=
  let v := s.seen u
  v.readyStep u p x fr d ∧ x.tags = [] ∧ o.sel d = true ∧ o.ready (stepEnv u x fr d) v = true
  ∧ o.pre (stepEnv u x fr d) (v.startTok u p x) = []

-- Safety (R323 to R377) ----------------------------------------------------------------------------------------------------------------------

/-- R341, R342: what entering the safe state leaves where none was latched: SAFE, latched, both outputs low; the cause and the frame
in flash; a SAFE_ENTRY message on both controllers; every verdict that a guard holds revoked. -/
def SafeEntered (s t : State) (cause frame : Nat) : Prop :=
  t.sd.state = .safe ∧ t.sd.latched = true ∧ t.deEnergised ∧ t.sd.cause = cause ∧ t.sd.flashCause = cause ∧ t.sd.flashFrame = frame
  ∧ (∃ m, .can 0 (s.safeNat 0x704001) m ∈ t.bus.out ∧ .can 1 (s.safeNat 0x704001) m ∈ t.bus.out ∧ fld m 0 1 = 2)
  ∧ ∀ d ∈ ioDies s.bus.variant, ∀ v, v < 4 → t.bus.flag (egrdB d + 0x1C + 16 * v) 0 = false

/-- R386: a state in which a fault enters the safe state, none being latched. -/
def State.trippable (s : State) : Prop := s.sdUp ∧ s.bus.wf = true ∧ s.bus.late = [] ∧ s.canTrip false = true ∧ s.sd.latched = false

/-- R362: a violation found for frame `f` by monitor `n`: it marks the frame, or where its verdict has been issued the next verdict, and
is logged with the frame. -/
def Violated (s t : State) (f n : Nat) : Prop :=
  (if (s.sd.frame f).issued = true then t.sd.lateTiming = true else (t.sd.frame f).timing = true)
  ∧ (t.mgmt.log.head?).map (fun r => (r.index, r.sub, r.code)) = some (0x7400, n % 256, f)

/-- Every frame's record but `f`'s is as it was. -/
def OtherFrames (s t : State) (f : Nat) : Prop := ∀ g, g ≠ f → t.sd.frame g = s.sd.frame g

/-- R450, R342, R402: what a reset of the whole device leaves: BOOT, the main dies held, the outputs low. The latch record, the confirmed
SAFE set, the copies, the fuses and the commissioned table stand as they were; every other register is at its reset value, device memory
reads 0, and the commands wait as before. -/
def BootKept (s t : State) : Prop :=
  t.sd.state = .boot ∧ t.plat.mainHeld = true ∧ t.deEnergised ∧ t.sd.halted = false ∧ t.sd.latched = decide (s.sd.flashCause ≠ 0)
  ∧ t.sd.flashCause = s.sd.flashCause ∧ t.mgmt.safe = s.mgmt.safe ∧ t.mgmt.pending = [] ∧ t.mgmt.copyA = s.mgmt.copyA
  ∧ t.mgmt.copyB = s.mgmt.copyB ∧ t.mgmt.secMin = s.mgmt.secMin ∧ t.pending = s.pending ∧ (∀ a, t.bus.rd a = 0)
  ∧ (∀ a, a < cleB + 0x3000 ∨ cleB + 0x3400 ≤ a → t.bus.reg a = (regReset a).toNat)
  ∧ ∀ a, cleB + 0x3000 ≤ a → a < cleB + 0x3400 → t.bus.reg a = s.bus.reg a

/-- R412, R431: port `k`'s link has gone DOWN: HELD in ARMED and RUN, training in CONFIG and COMMISSION; noted and counted. -/
def LinkLost (s t : State) (k : Nat) : Prop :=
  t.bus.field (kydB k + 4) 1 0 = (if s.sd.state = .armed ∨ s.sd.state = .run then 3 else if s.calWritable then 1 else 0)
  ∧ t.bus.flag (kydB k + 4) 31 = true ∧ Counted s t (kydB k + 0x128) ∧ SameMem s t ∧ t.sd = s.sd

end Sys2Proof.Machine
end

