-- ==== Sys2Proof/Certificates/Slice0/Obligations.lean ====
section
/-! DEFINITION. The statements for the provers. -/

section

set_option maxRecDepth 4000

open Sys2Proof Sys2Proof.Machine

/-- R399: the command at the front of the queue is taken and performed on the rest of the machine, for every command and state. -/
def Obligations.StepPerformsTheFrontCommand : Prop :=
  ∀ (s : State) (c : Instr) (cs : List Instr), s.pending = c :: cs → step s = exec c { s with pending := cs }

/-- Every command of the opcode table, in every state, answers a next state, keeps the waiting commands and the device's variant; with no
command waiting a step is one cycle of the 500 MHz time-engine clock (R276; notes/assumptions/1.md): the network moves on by it, and beside
that only register words, poison bits and the outputs may change, by a random fault of the hardware (R102; notes/assumptions/106.md), and
none while the main dies are held. -/
def Obligations.EveryCommandCompletes : Prop :=
  (∀ (c : Instr) (s : State), Completes c s fun t => t.pending = s.pending ∧ t.bus.variant = s.bus.variant)
  ∧ (∀ s : State, s.pending = [] → step s = .next s.idle)
  ∧ ∀ s : State, s.idle = { s with net := s.net.tick, bus := { s.bus with
      regs := s.idle.bus.regs, poison := s.idle.bus.poison, free := s.idle.bus.free, out := s.idle.bus.out } }
    ∧ (s.plat.mainHeld = true → s.idle.bus = s.bus)

/-- R450, R402, R342: State.reset is the device before start-up: BOOT with the main dies held, the outputs low, nothing latched, the Junesha
die running, no command waiting, and every part in its number; every register word reads its reset value. That memory reads 0 is the
model's choice (notes/assumptions/3.md). -/
def Obligations.ResetIsAsStated : Prop :=
  let s := State.reset
  s.sd.state = .boot ∧ s.plat.mainHeld = true ∧ s.deEnergised ∧ s.sd.latched = false ∧ s.sdUp ∧ s.pending = [] ∧ s.outputsSound
  ∧ s.bus.wf = true ∧ s.bus.late = [] ∧ s.complete ∧ (∀ a, s.bus.rd a = 0) ∧ ∀ a, s.bus.reg a = (regReset a).toNat

/-- R346, R347: no step energises an output outside RUN or while a safe state is latched: from every state in which the outputs are sound,
a step leads to one in which they are. -/
def Obligations.NoStepEnergisesOutsideRun : Prop :=
  ∀ s t : State, s.outputsSound → step s = .next t → t.outputsSound

/-- Every step keeps the memories and the register file in their canonical form, leaves no write of a command undone, and keeps the number
of stations, camera front ends, sensor ports and DMA channels. -/
def Obligations.StepsKeepTheStateInForm : Prop :=
  ∀ s t : State, s.bus.wf = true → s.bus.late = [] → s.complete → step s = .next t →
    t.bus.wf = true ∧ t.bus.late = [] ∧ t.complete

/-- R12: reads of the two words of a 64-bit register. The lower word returns the lower half and leaves the upper half as the requester's
snapshot; the upper word returns and consumes the snapshot where one is pending, and the present value where none is. No other requester's
or register's snapshot, no held write, no register and no byte of memory changes. R12: writes of the two words of a 64-bit register. The
upper word is held for its requester and changes no register; a lower word then changes both halves and uses up what was held; with nothing
held it changes its own half alone. (Registers whose writes only set bits; a write's other effects are their chapters'.) -/
def Obligations.WideRegistersAreReadAndWrittenAsPairs : Prop :=
  (∀ (s : State) (r : Requester) (a : BitVec 40) (l : RegLoc), s.reachesRegs r a →
      mappedReg s.bus.variant (s.regAddr a) = some l → l.row.wide = true → l.row.rc = false →
      ¬(l.block = .eth ∧ l.row.off = 0x3C) →
      let used := if s.openRead l = true then s.bus.free + 1 else s.bus.free
      (l.upper = false → Completes (.reg64ReadLower r a) s fun t =>
        t.bus = { s.bus with free := used, out := .readData r a.toNat (BitVec.ofNat 32 (s.readValue l (s.regAddr a))) :: s.bus.out }
        ∧ alook t.access.snaps (r, s.regAddr a) = some (BitVec.ofNat 32 (s.readValue { l with upper := true } (s.regAddr a + 4)))
        ∧ (∀ k, k ≠ (r, s.regAddr a) → alook t.access.snaps k = alook s.access.snaps k)
        ∧ t = { s with bus := t.bus, access := { s.access with snaps := t.access.snaps } })
      ∧ (l.upper = true → Completes (.reg64ReadUpper r a) s fun t =>
        t.bus = { s.bus with
          free := if (alook s.access.snaps (r, s.regAddr a - 4)).isSome = true then s.bus.free else used
          out := .readData r a.toNat ((alook s.access.snaps (r, s.regAddr a - 4)).getD
            (BitVec.ofNat 32 (s.readValue l (s.regAddr a)))) :: s.bus.out }
        ∧ alook t.access.snaps (r, s.regAddr a - 4) = none
        ∧ (∀ k, k ≠ (r, s.regAddr a - 4) → alook t.access.snaps k = alook s.access.snaps k)
        ∧ t = { s with bus := t.bus, access := { s.access with snaps := t.access.snaps } }))
  ∧ (∀ (s : State) (r : Requester) (a : BitVec 40) (l : RegLoc) (v : Word) (now : Nat), s.reachesRegs r a →
      mappedReg s.bus.variant (s.regAddr a) = some l → l.row.wide = true → l.block.plain = true → s.regAddr a < sdB →
      s.regAddr a ≠ pcieB + 0x100 →
      (l.upper = true → Completes (.reg64WriteUpper r a v) s fun t =>
        alook t.access.held (r, s.regAddr a - 4) = some v
        ∧ (∀ k, k ≠ (r, s.regAddr a - 4) → alook t.access.held k = alook s.access.held k)
        ∧ t = { s with access := { s.access with held := t.access.held } })
      ∧ (l.upper = false → Completes (.reg64WriteLower r a v now) s fun t =>
        t.bus.reg (s.regAddr a) = wordAfterWrite l.rwMask l.w1cMask (s.bus.reg (s.regAddr a)) v.toNat % 2 ^ 32
        ∧ t.bus.reg (s.regAddr a + 4) = (match alook s.access.held (r, s.regAddr a) with
          | some u => wordAfterWrite (l.row.rw / 2 ^ 32) (l.row.w1c / 2 ^ 32) (s.bus.reg (s.regAddr a + 4)) u.toNat % 2 ^ 32
          | none => s.bus.reg (s.regAddr a + 4))
        ∧ SameRegsBut s t [s.regAddr a, s.regAddr a + 4]
        ∧ alook t.access.held (r, s.regAddr a) = none
        ∧ (∀ k, k ≠ (r, s.regAddr a) → alook t.access.held k = alook s.access.held k)
        ∧ t = { s.at now with bus := { s.bus with regs := t.bus.regs }, access := { s.access with held := t.access.held } }))

/-- R10, R11: a write of a 32-bit register sets its RW bits to what is written, clears each W1C bit written 1, and leaves every other bit,
every other register and all of memory alone. (Registers whose writes only set bits.) R10, R13: a read of an RC counter returns the count
from before the events of its own cycle, and the counter then holds those events, up to its saturation. -/
def Obligations.AccessCodesRuleReadsAndWrites : Prop :=
  (∀ (s : State) (r : Requester) (a : BitVec 40) (l : RegLoc) (v : Word) (now : Nat), s.reachesRegs r a →
      mappedReg s.bus.variant (s.regAddr a) = some l → l.row.wide = false → l.block.plain = true → s.regAddr a < sdB →
      s.regAddr a ≠ pcieB + 0x100 →
      Completes (.registerWrite r a v now) s fun t =>
        (∀ i, i < 32 → t.bus.flag (s.regAddr a) i =
          if bit l.rwMask i = true then bit v.toNat i
          else if bit l.w1cMask i = true ∧ bit v.toNat i = true then false else s.bus.flag (s.regAddr a) i)
        ∧ SameRegsBut s t [s.regAddr a]
        ∧ t = { s.at now with bus := { s.bus with regs := t.bus.regs } })
  ∧ (∀ (s : State) (r : Requester) (a : BitVec 40) (l : RegLoc) (k : Nat), s.reachesRegs r a →
      mappedReg s.bus.variant (s.regAddr a) = some l → l.row.wide = false → l.row.rc = true →
      Completes (.rcRead r a k) s fun t =>
        t.bus.out = .readData r a.toNat (BitVec.ofNat 32 (s.bus.reg (s.regAddr a))) :: s.bus.out
        ∧ t.bus.reg (s.regAddr a) = Nat.min k 0xFFFFFFFF
        ∧ OnlyRegsOut s t [s.regAddr a])

/-- R14: an access to an address of register space that no register has: a read returns 0, a write has no effect, and either counts once in
the unmapped-access counter. R27: a write to the Junesha die's status window has no effect, and the Junesha die, while it runs, logs it in
its own diagnostics. -/
def Obligations.UnmappedAndStatusWindowAccessesDoNothing : Prop :=
  (∀ (s : State) (r : Requester) (a : BitVec 40), s.reachesRegs r a → mappedReg s.bus.variant (s.regAddr a) = none →
      Completes (.unmappedAccess r a none) s (fun t =>
        t = { s with bus := { s.bus with unmapped := Nat.min (s.bus.unmapped + 1) 0xFFFFFFFF,
                                         out := .readData r a.toNat 0 :: s.bus.out } })
      ∧ ∀ v, (s.regAddr a < sdB ∨ sdB + 0x100000 ≤ s.regAddr a) → s.regAddr a ≠ pcieB + 0x100 →
        Completes (.unmappedAccess r a (some v)) s fun t =>
          t = { s with bus := { s.bus with unmapped := Nat.min (s.bus.unmapped + 1) 0xFFFFFFFF } })
  ∧ (∀ (s : State) (r : Requester) (a : BitVec 40) (v : Word), s.reachesRegs r a → s.sdUp →
      sdB ≤ s.regAddr a → s.regAddr a < sdB + 0x100000 →
      Completes (.sdWindowWrite r a v) s fun t =>
        t = { s with
          sd := { s.sd with windowWrites := s.sd.windowWrites ++ [(s.regAddr a, v)] }
          bus := if (mappedReg s.bus.variant (s.regAddr a)).isSome = true then s.bus
            else { s.bus with unmapped := Nat.min (s.bus.unmapped + 1) 0xFFFFFFFF } })

/-- R21, R23: one transaction. A read of memory returns the bytes stored and changes none; a write through no slot stores its bytes and
changes no other byte; one to HBM is counted once, as a hit or a miss of the history cache (R85); a write of the intake table SRAM by
anyone but an SIE, and any transaction outside every range, is refused as a bus error, is counted, and changes nothing. R28: a host request
any of whose bytes lies outside its BAR or lands where R21 refuses is an Unsupported Request and changes nothing; a read of memory through
BAR2, in one line, returns the bytes stored. -/
def Obligations.FabricTransactionsAndHostRequests : Prop :=
  (∀ (s : State) (r : Requester) (a : BitVec 40), s.up → s.canIssue r = true →
      (∀ n, inLine a.toNat n → s.bus.served a.toNat n = true →
        ((s.bus.place a.toNat = .um ∨ s.bus.place a.toNat = .intake) → Completes (.fabricAccess r a (.read n)) s fun t =>
          t = s.emit (.memData a.toNat (s.bus.rdN (s.regAddr a) n) (s.bus.poisoned (s.regAddr a) n)))
        ∧ (s.bus.place a.toNat = .hbm → Completes (.fabricAccess r a (.read n)) s fun t =>
          t.bus.out = .memData a.toNat (s.bus.rdN (s.regAddr a) n) (s.bus.poisoned (s.regAddr a) n) :: s.bus.out ∧ CacheCounted s t
          ∧ t = { s with bus := { s.bus with regs := t.bus.regs, free := t.bus.free, out := t.bus.out } }))
      ∧ (∀ bs, inLine a.toNat bs.length → s.bus.served a.toNat bs.length = true →
        ((s.bus.place a.toNat = .um ∨ (s.bus.place a.toNat = .intake ∧ isSie r = true)) →
          Completes (.fabricAccess r a (.write bs .direct)) s fun t =>
          t.bus.rdN (s.regAddr a) bs.length = bs ∧ SameMemBut s t (s.regAddr a) bs.length
          ∧ t = { s with bus := { s.bus with mem := t.bus.mem, poison := t.bus.poison } })
        ∧ (s.bus.place a.toNat = .hbm → Completes (.fabricAccess r a (.write bs .direct)) s fun t =>
          t.bus.rdN (s.regAddr a) bs.length = bs ∧ SameMemBut s t (s.regAddr a) bs.length ∧ CacheCounted s t
          ∧ t = { s with bus := { s.bus with mem := t.bus.mem, poison := t.bus.poison, regs := t.bus.regs, free := t.bus.free } }))
      ∧ (∀ bs src, inLine a.toNat bs.length → (s.bus.served a.toNat bs.length = false ∨ (s.bus.place a.toNat = .intake ∧ isSie r = false)) →
        Completes (.fabricAccess r a (.write bs src)) s fun t =>
          t.bus.reg (fabB + 0x110) = Nat.min (s.bus.reg (fabB + 0x110) + 1) 0xFFFFFFFF ∧ t.bus.out = .busError a.toNat :: s.bus.out
          ∧ OnlyRegsOut s t [fabB + 0x110])
      ∧ (∀ n, inLine a.toNat n → s.bus.served a.toNat n = false →
        Completes (.fabricAccess r a (.read n)) s fun t =>
          t.bus.reg (fabB + 0x110) = Nat.min (s.bus.reg (fabB + 0x110) + 1) 0xFFFFFFFF ∧ t.bus.out = .busError a.toNat :: s.bus.out
          ∧ OnlyRegsOut s t [fabB + 0x110]))
  ∧ (∀ (s : State) (e : Fin 2) (bar : Bar) (off : Nat), s.up → s.canIssue (.pcie e) = true →
      (∀ op, s.barServed bar off (opLen op) = false → Completes (.hostBarAccess e bar off op) s fun t => t = s.emit (.unsupported e off))
      ∧ (∀ n, inLine off n → off + n ≤ 0x0A000000 → Completes (.hostBarAccess e .bar2 off (.read n)) s fun t =>
          t = s.emit (.memData off (s.bus.rdN off n) (s.bus.poisoned off n))))

/-- R482, R64: SIE_CTRL.ENABLE set from 0 to 1 discards the staging ring, treats every frame up to the present one as closed and, at SIE0,
forgets what is unpublished: the next slice to close is slice 0 of the frame after the present one, and both directories read zero.
Cleared, staging and closing stop and the ring stays until FLUSH; FLUSH acts only while ENABLE is 0. No byte outside the intake table SRAM
changes. R46: when the clear of bank `p`'s directory completes, its 16 MiB of intake table SRAM read zero and every other byte reads as
before; nothing else changes but that the bank is clear (no closing waiting for it). -/
def Obligations.SieStartsStopsAndClears : Prop :=
  (∀ (s : State) (d : Fin 2) (now g : Nat), s.up → s.hasSie d = true →
      (s.bus.flag (sieB d) 0 = false → s.bus.frameOf now = some g → Completes (.sieEnable d now) s fun t =>
        t.bus.flag (sieB d) 0 = true ∧ t.intake.ring d = [] ∧ (if d.val = 0 then t.intake.first0 else t.intake.first1) = g + 1
        ∧ (d.val = 0 → t.intake.cur = { frame := g + 1 } ∧ t.intake.waiting = false
            ∧ ∀ x, t.bus.rd x = if 0x10000000 ≤ x ∧ x < 0x12000000 then 0 else s.bus.rd x)
        ∧ (d.val = 1 → t.intake.cur = s.intake.cur ∧ SameMem s t) ∧ t.intake.poses = s.intake.poses)
      ∧ Completes (.sieDisable d false) s (fun t =>
          t.bus.flag (sieB d) 0 = false ∧ OnlyRegs s t [sieB d])
      ∧ Completes (.sieDisable d true) s (fun t =>
          t.bus.flag (sieB d) 0 = false ∧ t.intake.ring d = [] ∧ SameMem s t)
      ∧ (s.bus.flag (sieB d) 0 = true → Completes (.flush d) s fun t => t = s)
      ∧ (s.bus.flag (sieB d) 0 = false → Completes (.flush d) s fun t => t.intake.ring d = [] ∧ SameMem s t))
  ∧ (∀ (s : State) (p : Fin 2), s.up → (if p.val = 0 then s.intake.clearing0 else s.intake.clearing1) = true → s.intake.waiting = false →
      Completes (.directoryClearDone p) s fun t =>
        (∀ x, t.bus.rd x = if 0x10000000 + p.val * 0x01000000 ≤ x ∧ x < 0x11000000 + p.val * 0x01000000 then 0 else s.bus.rd x)
        ∧ t = { s with bus := { s.bus with mem := t.bus.mem, poison := t.bus.poison }, intake := s.intake.setClearing p.val false })

/-- R34, R51, R63, R66, R304, R315: at the opening of frame `f`'s window, in every state, values are latched for the frame. Where nothing
else falls due with it, they are the slice length, the edges, the rule and the limits as written where they are allowed, and otherwise
those of the frame latched before, with the status bit that says so. An update pending for 1 ms enters the active table: its entries are
replaced and no others. A frame latched already, and an instant that is not the frame's, change nothing. -/
def Obligations.WindowOpeningLatchesAllowedValues : Prop :=
  ∀ (s : State) (f now : Nat), s.up →
    let first := s.bus.frameOf now = some f ∧ (s.intake.latches.getLast?).map (·.frame) ≠ some f
    let alone := s.sd.pendingCause = none ∧ s.kydor.runAt = none
    (first → s.mgmt.bistRunning = [] → Completes (.frameWindowOpen f now) s fun t =>
      (t.intake.latches.getLast?).map (·.frame) = some f ∧ SameMem s t)
    ∧ (first → alone → s.calib.pendingAt = none → Completes (.frameWindowOpen f now) s fun t =>
      ∃ l, t.intake.latches.getLast? = some l ∧ l.frame = f ∧ l.regs = s.bus.regs
      ∧ (let n := s.bus.field (sieB 0 + 0x70) 5 0
         let ok := 1 ≤ n ∧ n ≤ 32 ∧ s.bus.tf % (n * 250000) = 0
         (ok → l.sliceNs = n * 250000)
         ∧ (¬ok → l.sliceNs = ((s.intake.restart f).prevLatch f).sliceNs ∧ t.bus.flag (sieB 0 + 4) 30 = true))
      ∧ (let v := s.bus.reg (sieB 0 + 0x10)
         (1 ≤ v ∧ v ≤ 4194304 → l.vtLimit = v)
         ∧ (¬(1 ≤ v ∧ v ≤ 4194304) → l.vtLimit = ((s.intake.restart f).prevLatch f).vtLimit ∧ t.bus.flag (sieB 0 + 4) 26 = true))
      ∧ (let e := s.bus.field (sieB 0 + 0x0C) 23 0
         let ok := edgeOk (e % 256) = true ∧ edgeOk (e / 256 % 256) = true ∧ edgeOk (e / 65536) = true
         (ok → l.edges = BitVec.ofNat 24 e)
         ∧ (¬ok → l.edges = ((s.intake.restart f).prevLatch f).edges ∧ t.bus.flag (sieB 0 + 4) 29 = true))
      ∧ SameMem s t)
    ∧ (∀ u, first → alone → s.calib.pendingAt = some u → u + 1000000 ≤ now → Completes (.frameWindowOpen f now) s fun t =>
      (∀ e, e < 32 → t.bus.xform (activeAt e) =
        if bit (fld s.bus.stage 4 4) e = true then stagedEntry s.bus.stage e else s.bus.xform (activeAt e))
      ∧ t.bus.reg (cleB + 0x10) = fld s.bus.stage 0 4 ∧ t.bus.flag (cleB + 4) 1 = false ∧ t.calib.pendingAt = none
      ∧ Counted s t (cleB + 0x11C) ∧ SameMem s t)
    ∧ (¬first → Completes (.frameWindowOpen f now) s fun t => t = s)

/-- R43, R44, R46, R49: when the next slice is due and nothing holds it back, SLICE_CLOSE takes its points from the staging rings and no
others; the end of a pose wait, and the release of a bank that held the closing, do the same. -/
def Obligations.SliceClosingTakesItsPoints : Prop :=
  ∀ (s : State) (now : Nat) (l : Latch) (pose : PoseResult), s.up →
    ((s.at now).closable now l pose → Completes (.sliceClose now) s (SliceTaken (s.at now) l))
    ∧ ((s.at now).closable now l pose → s.intake.waiting = true → s.intake.refWait = none →
        (∀ d, ((s.cam d).frames.filter (fun x => x.ended && !x.poseDone)) = []) →
        Completes (.poseWaitExpiry now) s (SliceTaken (s.at now) l))
    ∧ (∀ p : Fin 2, s.closable s.now l pose → s.intake.waiting = true → s.intake.cur.frame % 2 = p.val →
        Completes (.bankReleased p) s (SliceTaken s l))

/-- R48: a committed pose whose CRC fails, or whose quaternion's norm or time is refused, is counted in POSE_REJECT and not taken; any
other is put at the end of the ring, and when the ring held 64 the oldest leaves it. (No closing, P_ref or camera frame waiting for
one.) -/
def Obligations.PoseCommitIsRefusedOrTaken : Prop :=
  ∀ (s : State) (crc : Word), s.up → s.intake.waiting = false → s.intake.refWait = none →
    (∀ d, ((s.cam d).frames.filter (fun x => x.ended && !x.poseDone)) = []) →
    let b := s.bus.setReg (sieB 0 + 0x82C) crc.toNat
    let bs := b.poseIn
    let w (i : Nat) : Int := sfld bs (8 + 4 * i) 4
    let x : Xform := { tx := w 0, ty := w 1, tz := w 2, qw := w 3, qx := w 4, qy := w 5, qz := w 6 }
    let early := match s.intake.poses.getLast? with
      | some p => fld bs 0 8 < p.time + 1000000
      | none => False
    ((crc32c (sub bs 0 0x2C) ≠ fld bs 0x2C 4 ∨ x.normOk = false ∨ early) → Completes (.poseCommit crc) s fun t =>
        t.intake = s.intake
        ∧ t.bus.reg (sieB 0 + 0x8404) = Nat.min (s.bus.reg (sieB 0 + 0x8404) + 1) 0xFFFFFFFF
        ∧ OnlyRegs s t [sieB 0 + 0x82C, sieB 0 + 0x8404])
    ∧ ((crc32c (sub bs 0 0x2C) = fld bs 0x2C 4 ∧ x.normOk = true ∧ ¬early) → Completes (.poseCommit crc) s fun t =>
        (let ring := s.intake.poses ++ [{ time := fld bs 0 8, x := x, seq := BitVec.ofNat 32 (fld bs 0x24 4) }]
         t.intake.poses = if 64 < ring.length then ring.drop 1 else ring)
        ∧ t = { s with bus := b, intake := { s.intake with poses := t.intake.poses } })

/-- R286, R297: a frame with a bad FCS that a port receives is counted in RX_FRAMES and FCS_ERR and goes no further; a frame to the port's
own address, with IN_RATE 0, goes to the internal port alone, and its source address is learned there; one beyond IN_RATE, measured by the
port's bucket, is counted in IN_POLICED and goes no further (the manual leaves open how much the bucket holds, `burst`, and the statement
is of every amount: notes/assumptions/75.md); a port that is off receives nothing. -/
def Obligations.EthernetReception : Prop :=
  ∀ (s : State) (p : Fin 16) (frame : List Byte) (raw : Nat) (fits : Bool) (burst now : Nat), s.up →
    (s.bus.portUp p.val = true → Completes (.ethFrameRx p frame false raw fits burst now) s fun t =>
      t.bus.reg (ethB p.val + 0x100) = Nat.min (s.bus.reg (ethB p.val + 0x100) + 1) 0xFFFFFFFF
      ∧ t.bus.reg (ethB p.val + 0x104) = Nat.min (s.bus.reg (ethB p.val + 0x104) + 1) 0xFFFFFFFF
      ∧ OnlyRegs (s.at now) t [ethB p.val + 0x100, ethB p.val + 0x104])
    ∧ (s.bus.portUp p.val = true → udpOf frame = none → s.bus.reg (ethB p.val + 0x20) = 0 → (ethHead frame).dst = s.bus.portMac p.val →
        (ethHead frame).dst / 16 ≠ 0x0180C200000 → Completes (.ethFrameRx p frame true raw fits burst now) s fun t =>
      t.bus.reg (ethB p.val + 0x100) = Nat.min (s.bus.reg (ethB p.val + 0x100) + 1) 0xFFFFFFFF
      ∧ t.bus.out = .toInternal (p.val / 8) frame :: s.bus.out
      ∧ t.net = (s.at now).net.learn (p.val / 8) (ethHead frame).src p.val now
      ∧ OnlyRegsOut { s.at now with net := t.net } t [ethB p.val + 0x100])
    ∧ (s.bus.portUp p.val = true → udpOf frame = none → s.bus.reg (ethB p.val + 0x20) ≠ 0 →
        filled (s.bus.reg (ethB p.val + 0x20)) burst (s.net.port p.val).inTokens (s.net.port p.val).inAt now < frameCost frame →
        Completes (.ethFrameRx p frame true raw fits burst now) s fun t =>
      t.bus.reg (ethB p.val + 0x100) = Nat.min (s.bus.reg (ethB p.val + 0x100) + 1) 0xFFFFFFFF
      ∧ t.bus.reg (ethB p.val + 0x124) = Nat.min (s.bus.reg (ethB p.val + 0x124) + 1) 0xFFFFFFFF ∧ t.net.macs = s.net.macs
      ∧ OnlyRegs { s.at now with net := t.net } t [ethB p.val + 0x100, ethB p.val + 0x124])
    ∧ ∀ ok, s.bus.portUp p.val = false → Completes (.ethFrameRx p frame ok raw fits burst now) s fun t => t = s.at now

/-- R73, R83, R90, R91: the store's registers. NEW_EPOCH is noted and nothing else changes. HS_CLEAR, with HS_EN set, and READY clear or no
backsight step issued, zeroes the tag area and no other byte, advances the epoch, clears READY and sets CLEARING; in the other cases it
only reports CFG_ERR. The clear's end sets READY and clears CLEARING. HS_EN is set to 1 only for a valid configuration, and is otherwise 0
with CFG_ERR; the ways that the store takes are then in force; HS_CFG and HS_BASE are taken only while HS_EN = 0, and clear READY. -/
def Obligations.HistoryStoreRegisterCommands : Prop :=
  ∀ s : State, s.up →
    Completes .newEpoch s (fun t => t = { s with hist := { s.hist with newEpoch := true } })
    ∧ ((s.bus.flag hcB 1 = true ∧ (s.bus.flag (hcB + 4) 0 = false ∨ s.bseIdle = true)) →
        Completes .hsClear s fun t =>
          (∀ x, t.bus.rd x = if s.bus.hsBase ≤ x ∧ x < s.bus.hsBase + s.bus.hsGroups * 1024 then 0 else s.bus.rd x)
          ∧ t.bus.reg (hcB + 0x18) = (s.bus.hsEpoch + 1) % 65536 ∧ t.bus.flag (hcB + 4) 0 = false ∧ t.bus.flag (hcB + 4) 1 = true
          ∧ SameRegsBut s t [hcB + 0x18, hcB + 4])
    ∧ (¬(s.bus.flag hcB 1 = true ∧ (s.bus.flag (hcB + 4) 0 = false ∨ s.bseIdle = true)) →
        Completes .hsClear s fun t => t.bus.flag (hcB + 4) 31 = true ∧ OnlyRegs s t [hcB + 4])
    ∧ (s.bus.flag (hcB + 4) 1 = true → Completes .hsClearDone s fun t =>
        t.bus.flag (hcB + 4) 0 = true ∧ t.bus.flag (hcB + 4) 1 = false ∧ OnlyRegs s t [hcB + 4])
    ∧ (s.bus.flag (hcB + 4) 1 = false → Completes .hsClearDone s fun t => t = s)
    ∧ (∀ v, Completes (.hsEn v) s fun t => t.bus.flag hcB 1 = (v && s.bus.hsValid)
        ∧ t.bus.flag (hcB + 4) 31 = (s.bus.flag (hcB + 4) 31 || (v && !s.bus.hsValid))
        ∧ t.bus.hcWays = (if (v && s.bus.hsValid) = true then (if 4 ≤ s.bus.field (hcB + 0x24) 3 0 then s.bus.field (hcB + 0x24) 3 0 else 12)
            else s.bus.hcWays)
        ∧ t = { s with bus := { s.bus with regs := t.bus.regs, hcWays := t.bus.hcWays } } ∧ SameRegsBut s t [hcB, hcB + 4])
    ∧ (∀ w, s.bus.flag hcB 1 = true → Completes (.hsCfgWrite w) s fun t => t.bus.flag (hcB + 4) 31 = true ∧ OnlyRegs s t [hcB + 4])
    ∧ (∀ v, s.bus.flag hcB 1 = false → Completes (.hsCfgWrite (.cfg v)) s fun t =>
        t.bus.reg (hcB + 8) = v.toNat &&& 0x1F0F0000 ∧ t.bus.flag (hcB + 4) 0 = false ∧ OnlyRegs s t [hcB + 8, hcB + 4])
    ∧ (∀ v, s.bus.flag hcB 1 = false → Completes (.hsCfgWrite (.base v)) s fun t =>
        t.bus.reg64 (hcB + 0x10) = v.toNat ∧ t.bus.flag (hcB + 4) 0 = false ∧ OnlyRegs s t [hcB + 0x10, hcB + 0x14, hcB + 4])

/-- R104, R105: ADD adds to COUNT modulo 2^32, and on an ARRIVAL object is refused: the refusal is counted and COUNT stays. SET writes
COUNT and advances EPOCH modulo 256. REACHED is COUNT ≥ TARGET after either, and an object with IRQ_EN interrupts when it becomes 1. No
other object and no byte of memory changes. -/
def Obligations.SyncOperations : Prop :=
  ∀ (s : State) (n : Fin 16384) (k : BitVec 24), s.up →
    (s.bus.kind n.val ≠ 1 → Completes (.syncAdd n k) s fun t =>
      t.bus.count n.val = (s.bus.count n.val + k.toNat) % 2 ^ 32 ∧ t.bus.target n.val = s.bus.target n.val
      ∧ t.bus.epoch n.val = s.bus.epoch n.val ∧ t.bus.flag (syncB n.val + 8) 23 = t.bus.reached n.val
      ∧ t.bus.out = (if (!s.bus.reached n.val && t.bus.reached n.val && s.bus.flag (syncB n.val + 8) 15) = true
          then .irqMgt (syncB n.val) :: s.bus.out else s.bus.out)
      ∧ OnlyRegsOut s t [syncB n.val, syncB n.val + 8])
    ∧ (s.bus.kind n.val = 1 → Completes (.syncAdd n k) s fun t =>
      t.bus.flag (syncB n.val + 8) 22 = true
      ∧ t.bus.field (syncB n.val + 8) 31 24 = Nat.min (s.bus.field (syncB n.val + 8) 31 24 + 1) 255
      ∧ OnlyRegs s t [syncB n.val + 8])
    ∧ Completes (.syncSet n k) s (fun t =>
      t.bus.count n.val = k.toNat ∧ t.bus.target n.val = s.bus.target n.val ∧ t.bus.epoch n.val = (s.bus.epoch n.val + 1) % 256
      ∧ t.bus.flag (syncB n.val + 8) 23 = t.bus.reached n.val
      ∧ t.bus.out = (if (!s.bus.reached n.val && t.bus.reached n.val && s.bus.flag (syncB n.val + 8) 15) = true
          then .irqMgt (syncB n.val) :: s.bus.out else s.bus.out)
      ∧ OnlyRegsOut s t [syncB n.val, syncB n.val + 8])

/-- R97, R117, R119: a fabric access that has waited 64 cycles is forced and counted, a shorter wait changes nothing; a normal request
that has waited longer than AGE_LIMIT (at least 64) is promoted and counted; a port map is taken while no task is admitted, and otherwise
refused with UM_STATUS bit 25. -/
def Obligations.PortForcingAgingAndPortMaps : Prop :=
  ∀ (s : State) (um : Fin 36) (arb : Fin 4) (w : Nat) (v : Word), s.up →
    (64 ≤ w → Completes (.fabForce um w) s fun t =>
      t.bus.reg (umB um + 0x8208) = Nat.min (s.bus.reg (umB um + 0x8208) + 1) 0xFFFFFFFF ∧ OnlyRegs s t [umB um + 0x8208])
    ∧ (w < 64 → Completes (.fabForce um w) s fun t => t = s)
    ∧ (Nat.max 64 (s.bus.field (fabB + 0x10 + 4 * arb.val) 15 0) < w → Completes (.agePromote arb w) s fun t =>
        t.bus.reg (fabB + 0x100 + 4 * arb.val) = Nat.min (s.bus.reg (fabB + 0x100 + 4 * arb.val) + 1) 0xFFFFFFFF
        ∧ OnlyRegs s t [fabB + 0x100 + 4 * arb.val])
    ∧ (w ≤ Nat.max 64 (s.bus.field (fabB + 0x10 + 4 * arb.val) 15 0) → Completes (.agePromote arb w) s fun t => t = s)
    ∧ (s.fseq.anyAdmitted = false → Completes (.umPortmapWrite um v) s fun t =>
        t.bus.reg (umB um + 0x8000) = (if um.val < 32 then v.toNat % 2 ^ 16 else v.toNat) ∧ OnlyRegs s t [umB um + 0x8000])
    ∧ (s.fseq.anyAdmitted = true → Completes (.umPortmapWrite um v) s fun t =>
        t.bus.flag (umB um + 0x8004) 25 = true ∧ OnlyRegs s t [umB um + 0x8004])

/-- R124, R125, R152: LOAD is taken while RUN = 0 and is otherwise counted and ignored. A load that ends leaves LOADING 0, the code of its
first failing check, and VALID set exactly where none failed: the book is then the one at FB_BASE, and its CRC is the one reported;
otherwise there is no book. No byte of memory changes. RUN_SET is refused with CFG_ERR while VALID is 0; else frames open from the first
whose window starts at least 1 ms later. RUN_CLEAR clears RUN alone. -/
def Obligations.BooksAreLoadedAndRun : Prop :=
  ∀ s : State, s.up →
    (s.bus.flag fseqB 0 = false → Completes .load s fun t => t.bus.flag (fseqB + 4) 2 = true ∧ OnlyRegs s t [fseqB + 4])
    ∧ (s.bus.flag fseqB 0 = true → Completes .load s fun t =>
        t.bus.reg (fseqB + 0x210) = Nat.min (s.bus.reg (fseqB + 0x210) + 1) 0xFFFFFFFF ∧ OnlyRegs s t [fseqB + 0x210])
    ∧ (s.bus.flag (fseqB + 4) 2 = true → Completes .loadDone s fun t =>
        t.bus.flag (fseqB + 4) 2 = false ∧ t.bus.flag (fseqB + 4) 1 = decide (loadCode s.bus = 0)
        ∧ t.bus.field (fseqB + 4) 15 8 = loadCode s.bus
        ∧ t.fseq.book = (if loadCode s.bus = 0 then some ((readBook s.bus (decodeHead (bookBytes s.bus 0 64))).withClaims s.bus) else none)
        ∧ t.sd.bookValid = decide (loadCode s.bus = 0)
        ∧ t.bus.reg (fseqB + 0x38) = (if loadCode s.bus = 0 then (decodeHead (bookBytes s.bus 0 64)).crc else 0)
        ∧ SameMem s t)
    ∧ (∀ now, s.bus.flag (fseqB + 4) 1 = false → Completes (.runSet now) s fun t =>
        t.bus.flag (fseqB + 4) 31 = true ∧ OnlyRegs (s.at now) t [fseqB + 4])
    ∧ (∀ now, s.bus.flag (fseqB + 4) 1 = true → s.bus.flag fseqB 0 = false → Completes (.runSet now) s fun t =>
        t.bus.flag fseqB 0 = true ∧ t.fseq.next = some (s.bus.firstFrame (now + 1000000)) ∧ SameMem s t ∧ SameRegsBut s t [fseqB, smeB + 0x20])
    ∧ Completes .runClear s (fun t => t.bus.flag fseqB 0 = false ∧ OnlyRegs s t [fseqB])

/-- R136, R137, R143, R146: a frame that may open opens: it is the youngest open frame, the next frame is the one after it, its number is in
the current-frame register; its spare is the present one, or the next where that one's test has completed; an open test window is cut. -/
def Obligations.FramesOpenInTurn : Prop :=
  ∀ (s : State) (f now : Nat), s.up → s.fseq.next = some f → s.canOpen f now = true → Completes (.frameOpen now) s fun t =>
    let sp := if s.fseq.spareDone then (s.bus.spare + 1) % 32 else s.bus.spare
    t.fseq.next = some (f + 1) ∧ (t.fseq.openFrames.getLast?).map (fun x => (x.frame, x.spare)) = some (f, sp) ∧ t.bus.spare = sp
    ∧ t.fseq.openFrames.length = s.fseq.openFrames.length + 1 ∧ t.fseq.spareDone = false
    ∧ t.bus.reg (fseqB + 0x20) = f % 2 ^ 32 ∧ t.bus.flag (fseqB + 0x30) 5 = false ∧ SameMem s t

/-- R139, R140: a task that may be admitted, and does not wait for its count, is admitted, whatever its shape. A planned shape within the
plan and without a zero, with every region in order, goes to its unit's context at its first step, and no memory changes. -/
def Obligations.TasksAreAdmittedToTheirUnits : Prop :=
  ∀ (s : State) (n : Nat) (p : Fin 2) (x : OpenFrame) (k : Book) (e : TaskEntry) (u : UnitId), s.up →
    s.fseq.frameOfParity p.val = some x → s.fseq.book = some k → k.tasks[n]? = some e → s.canAdmit x n e = true →
    physUnit e.cls e.inst x.spare = some u →
    let slots := (k.slots e).map (fun r => r.resolve u x.spare)
    (e.countEn = false → Completes (.taskAdmit n p) s (fun t => (t.fseq.frame x.frame).map (fun y => y.admitted.contains n) = some true))
    ∧ ((slots.zip (k.slots e)).any (fun r => r.1.bad s.bus x.spare (r.2.isLocal || r.2.sliceRel)) = false → e.record = false →
        overPlan e e.plan = false → zeroShape e e.plan = false → Completes (.taskAdmit n p) s fun t =>
        t.ctx u p = some { task := n, frame := x.frame, entry := e, slots := slots, dims := e.plan } ∧ SameMem s t)

/-- R133, R114: a ready control step of the unit's context is taken, its signals are given, and the context moves on: NOP past itself;
LOOP into a loop of V (or ceil(V / DIM1)) iterations, or past the matching ENDLOOP where there are none; ENDLOOP back to the step after its
LOOP while iterations remain, and else past itself; CLAIM_END back to its CLAIM; SIGNAL_N gives each signal V = DIM0 times. No other
context, no memory and nothing else but the signalled objects changes. -/
def Obligations.ControlStepsMoveTheirContext : Prop :=
  ∀ (s : State) (u : UnitId) (p : Fin 2) (x : Ctx) (fr : OpenFrame) (d : StepD),
    let e := stepEnv u { x with started := true } fr d
    let s1 := s.startTok u p x
    let done (k : Nat) := doSignals s1.bus x.frame k d.signals
    (s.readyControl 0 u p x fr d →
      Completes (.nop u p) s (CtxMoved s u p { x with started := true, step := nextStep x d } (done 1)))
    ∧ (s.readyControl 1 u p x fr d →
        let n := if e.dim 1 = 0 then e.dim 0 else ceilDiv (e.dim 0) (e.dim 1)
        (n ≠ 0 → Completes (.loop u p) s (CtxMoved s u p { x with
          started := true, step := nextStep x d, loops := { start := nextStep x d, count := n, ctr := 0 } :: x.loops } (done 1)))
        ∧ (n = 0 → Completes (.loop u p) s (CtxMoved s u p { x with
          started := true, step := afterMatch s.bus x x.entry.stepCount 0 (nextStep x d) } (done 1))))
    ∧ (s.readyControl 2 u p x fr d → ∀ l ls, x.loops = l :: ls →
        (l.ctr + 1 < l.count → Completes (.endloop u p) s (CtxMoved s u p { x with
          started := true, step := l.start, loops := { l with ctr := l.ctr + 1 } :: ls } (done 1)))
        ∧ (¬(l.ctr + 1 < l.count) → Completes (.endloop u p) s (CtxMoved s u p { x with
          started := true, step := nextStep x d, loops := ls } (done 1))))
    ∧ (s.readyControl 4 u p x fr d → ∀ l ls, x.loops = l :: ls →
        Completes (.claimEnd u p) s (CtxMoved s u p { x with started := true, step := l.start } (done 1)))
    ∧ (s.readyControl 6 u p x fr d →
        Completes (.signalN u p) s (CtxMoved s u p { x with started := true, step := nextStep x d } (done (e.dim 0))))

/-- R107, R133: a ready CLAIM on an object that is not exhausted takes the object's present COUNT and EPOCH into the claim register and
adds 1 to COUNT; on an exhausted WORK object the register is emptied and the list moves past the matching CLAIM_END. (The CLAIM is not the
one its own open loop returned to.) R133: a ready LOAD_DIM whose operand passes the checks of R101 and reads, unpoisoned, a value (its low
DIM2 bits) within LOADED_MAX puts it in loaded dim DIM1[1:0], tainted by a bank conflict of a STRICT task (R96); a value above it stops the
task. Memory stays as it was. -/
def Obligations.ClaimsAndLoadedDimsAreTaken : Prop :=
  (∀ (s : State) (u : UnitId) (p : Fin 2) (x : Ctx) (fr : OpenFrame) (d : StepD) (sg : SignalEntry) (rest : List SignalEntry),
      s.readyControl 3 u p x fr d → d.signals = sg :: rest → (∀ e ∈ rest, e.en = false) → (∀ l ∈ x.loops, l.start ≠ x.step) →
      let o := parObj sg.parity sg.object x.frame
      let r := resolveDim fr { x with started := true } (d.dims.getD 1 0) (d.sels.getD 1 0) % 4
      (s.bus.kind o = 2 → s.bus.reached o = false → Completes (.claim u p) s fun t =>
        t.bus.count o = (s.bus.count o + 1) % 2 ^ 32 ∧ t.bus.epoch o = s.bus.epoch o ∧ SameMem s t
        ∧ SameRegsBut s t [syncB o, syncB o + 8]
        ∧ t.ctx u p = some { x with
            started := true, step := nextStep x d, loops := { start := x.step, count := 0, ctr := 0, claim := some r } :: x.loops,
            claims := aset x.claims r { object := o, old := BitVec.ofNat 32 (s.bus.count o), epoch := s.bus.epoch o, step := x.step } })
      ∧ (s.bus.kind o = 2 → s.bus.reached o = true → Completes (.claim u p) s fun t =>
        SameMem s t ∧ SameRegsBut s t []
        ∧ t.ctx u p = some { x with
            started := true, step := afterMatch s.bus x x.entry.stepCount 0 (nextStep x d), claims := adel x.claims r }))
  ∧ (∀ (s : State) (u : UnitId) (p : Fin 2) (x : Ctx) (fr : OpenFrame) (d : StepD) (dyn : StepDyn),
      let e := stepEnv u { x with started := true } fr d
      let g := ((((s.seen u).startTok u p x).onBus (·.nextFree)).narrowConflict e p dyn).bus.fetch (e.base 0) 4
      let v := leNat g.bytes % 2 ^ e.dim 2
      (s.seen u).readyControl 5 u p x fr d → issueFaults e [{ opnd := 0, write := false, narrow := true, ranges := [(0, 4)] }] = [] →
      g.busErr = false → g.poisoned = false →
      (v ≤ x.entry.loadedMax.getD (e.dim 1 % 4) 0 → Completes (.loadDim u ⟨p, dyn⟩) s fun t =>
          t.ctx u p = some { x with started := true, step := nextStep x d, loaded := modAt (fun _ => v) x.loaded (e.dim 1 % 4),
                                    taint := x.taint || conflictHit e dyn } ∧ SameMem s t)
      ∧ (x.entry.loadedMax.getD (e.dim 1 % 4) 0 < v → Completes (.loadDim u ⟨p, dyn⟩) s fun t =>
          (t.ctx u p).map (fun y => (y.stopped, y.step)) = some (true, x.step) ∧ SameMem s t))

/-- R101, R114, R142, R143: a ready step of each operation that runs through a unit's data path is carried out by that data path; its
signals are given and its list moves past it. Vector: ADD, SUB, MUL, MAX, MIN, MULADD, CVT, TAB, RSUM, RMAX, LSUM, PERM, SORT, MERGE.
Matrix: MM, MMB. Rulebook: RB_CLEAR, RB_INSERT, RB_SUBM, RB_MARK, RB_COUNT, RB_EMIT, RB_STRIDED. Backsight: BS_LOOKUP, BS_WRITE. Gather and
merge: GATHER_ALIGNED, GATHER_COMPACT, GATHER_PACKED, SCATTER, DRAIN_ROWS, PACK_UNS, COMPRESS. Crop and resize: CR_PROJECT, CR_CROP. Select
and merge: SM_MERGE, SM_BOXES. DMA: COPY, GATHER, SCATTER, DEINTERLEAVE, INTERLEAVE, BITPLANE. Calibration: CL_ACCUM, CL_SNAPSHOT. -/
def Obligations.UnitStepsRunAndSignal : Prop :=
  ∀ (s : State) (i : Fin 32) (q : Fin 4) (g : Fin 8) (k : Fin 2) (c : Fin 64) (p : Fin 2) (dyn : StepDyn),
    ∀ w ∈ stepUnits i q g k c p dyn, RunsStep w.1 s w.2.1 w.2.2 p

/-- R101, R129: of each of these operations, a step of which an operand fails a check of R101 stops its task at that step and writes no
memory; one whose DIM0 resolves to 0 accesses no memory, and its list moves past it (SM_MERGE, which then writes its pads, apart: R243). -/
def Obligations.StepsThatFailTheirChecksWriteNothing : Prop :=
  ∀ (s : State) (i : Fin 32) (q : Fin 4) (g : Fin 8) (k : Fin 2) (c : Fin 64) (p : Fin 2) (dyn : StepDyn),
    ∀ w ∈ stepUnits i q g k c p dyn, ∀ x fr d, s.stepIssues w.2.1 w.2.2 p x fr d →
      let e := stepEnv w.2.2 x fr d
      ((e.dim 0 ≠ 0 ∨ w.2.1.runsAtZero = true) → issueFaults e (w.2.1.accs e ((s.seen w.2.2).startTok w.2.2 p x)) ≠ [] →
        Completes w.1 s fun t => (t.ctx w.2.2 p).map (fun y => (y.stopped, y.step)) = some (true, x.step) ∧ SameMem s t)
      ∧ (e.dim 0 = 0 → w.2.1.runsAtZero = false → Completes w.1 s fun t =>
        (t.ctx w.2.2 p).map (·.step) = some (nextStep x d) ∧ SameMem s t)

/-- R176, R177, R179, R186, R265: what a step leaves in memory. A one-row INT32 ADD, SUB, MUL, MAX or MIN with every lane enabled leaves in
each of the 64 words of OPND2 the exact result of the words of OPND0 and OPND1, wrapped, or with MOD bit 0 saturated; SORT leaves the
records of OPND0, every lane enabled, in order of descending key and then ascending index; RB_CLEAR leaves zeros; COPY of one row leaves its
bytes. No other byte changes. -/
def Obligations.StepResults : Prop :=
  ∀ (s : State) (u : UnitId) (p : Fin 2) (x : Ctx) (fr : OpenFrame) (d : StepD) (r : Done),
    let e := stepEnv u x fr d
    r.codes = [] →
    (∀ i dyn, u = .stn i → vecType d = 2 → e.dim 0 = 1 → bits d.predRow 7 6 = 0 → bits d.predCol 7 6 = 0 →
      s.bus.holds (e.base 0) 256 → s.bus.holds (e.base 1) 256 → s.bus.holds (e.base 2) 256 →
      let v (o j : Nat) : Int := sext 32 (s.bus.rdNat (e.base o + 4 * j) 4)
      let out (f : Int → Int → Int) (t : State) : Prop := SameMemBut s t (e.base 2) 256 ∧
        ∀ j, j < 64 →
          let y := f (v 0 j) (v 1 j)
          ((t.bus.rdNat (e.base 2 + 4 * j) 4 : Nat) : Int)
            = (if bit (vecMod d) 0 then max (-(2 ^ 31)) (min y (2 ^ 31 - 1)) else y) % 2 ^ 32
      (s.stepRuns (opAdd i dyn) u p x fr d r → Completes (.add i p dyn) s (out (· + ·)))
      ∧ (s.stepRuns (opSub i dyn) u p x fr d r → Completes (.sub i p dyn) s (out (· - ·)))
      ∧ (s.stepRuns (opMul i dyn) u p x fr d r → Completes (.mul i p dyn) s (out (· * ·)))
      ∧ (s.stepRuns (opMax i dyn) u p x fr d r → Completes (.max i p dyn) s (out max))
      ∧ (s.stepRuns (opMin i dyn) u p x fr d r → Completes (.min i p dyn) s (out min)))
    ∧ (∀ i dyn, u = .stn i → bits d.predRow 7 6 = 0 → bits d.predCol 7 6 = 0 → s.bus.holds (e.base 0) (8 * e.dim 0) → s.bus.holds (e.base 2) (8 * e.dim 0) →
        s.stepRuns (opSort i dyn) u p x fr d r → Completes (.sort i p dyn) s fun t =>
          let recs (b : Bus) (o : Nat) : List Rec :=
            (List.range (e.dim 0)).map (fun j => (b.rdNat (e.base o + 8 * j) 4, b.rdNat (e.base o + 8 * j + 4) 4))
          (recs t.bus 2).Perm (recs s.bus 0)
          ∧ (recs t.bus 2).Pairwise (fun a b => b.1 < a.1 ∨ (a.1 = b.1 ∧ a.2 ≤ b.2))
          ∧ SameMemBut s t (e.base 2) (8 * e.dim 0))
    ∧ (∀ q, u = .rbe q → s.bus.holds (e.base 1 + 128 * e.first) (128 * e.dim 0) → s.stepRuns (opRbClear q) u p x fr d r →
        Completes (.rbClear q p) s fun t =>
          ∀ a, t.bus.rd a = if e.base 1 + 128 * e.first ≤ a ∧ a < e.base 1 + 128 * e.first + 128 * e.dim 0 then 0 else s.bus.rd a)
    ∧ (∀ c, u = .dma c → e.dim 0 = 1 → s.bus.holds (e.base 0) (8 * e.dim 1) → s.bus.holds (e.base 1) (8 * e.dim 1) →
        s.stepRuns (dmaUnit c.val 1) u p x fr d r → Completes (.dmaCopy c p) s fun t =>
          (∀ k, k < 8 * e.dim 1 → t.bus.rd (e.base 1 + k) = s.bus.rd (e.base 0 + k)) ∧ SameMemBut s t (e.base 1) (8 * e.dim 1))

/-- R189: an RB_INSERT or RB_MARK step with FIRST + n > 2^(TLOG2 − 1) stops its task at that step with DIM_EXCEEDS_PLAN (0x0B), the first
fault of its frame, before it writes anything. -/
def Obligations.StepsThatWouldOverfillATableStop : Prop :=
  ∀ (s : State) (q : Fin 4) (p : Fin 2) (x : Ctx) (fr : OpenFrame) (d : StepD), (s.seen (.rbe q)).readyStep (.rbe q) p x fr d →
    s.bus.flag (rbeB q.val) 0 = true →
    let e := stepEnv (.rbe q) x fr d
    2 ^ ((rbKernel e).tlog - 1) < e.first + e.dim 0 → d.unit = 4 →
    let stopped (t : State) : Prop := (t.ctx (.rbe q) p).map (fun y => (y.stopped, y.step)) = some (true, x.step) ∧ SameMem s t
      ∧ (fr.fault = none → (∀ y ∈ s.fseq.openFrames, y.frame = x.frame → y = fr) → ((t.fseq.frame x.frame).bind (·.fault)) = some 0x0B)
    (d.op = 0x002 → Completes (.rbInsert q p) s stopped) ∧ (d.op = 0x004 → Completes (.rbMark q p) s stopped)

/-- R143, R359: a context at the end of its list, with every answer come, completes: the context is free, its task is complete in its frame,
the task's signals are given, and its END token where it is monitored. A frame all of whose tasks are complete retires: it is no longer open
and is the last one retired. No memory changes. -/
def Obligations.TasksCompleteAndFramesRetire : Prop :=
  ∀ (s : State) (p : Fin 2), s.up →
    (∀ u x fr, s.ctx u p = some x → s.fseq.frame x.frame = some fr → fr.abandoned = false → x.stopped = false → x.tags = [] →
      x.owed = [] → x.entry.stepCount ≤ x.step → Completes (.taskComplete u p) s fun t =>
        t.ctx u p = none ∧ (t.fseq.frame x.frame).map (fun y => y.done.contains x.task) = some true
        ∧ (∀ o, o < 16384 → t.bus.count o = (doSignals s.bus x.frame 1 x.entry.done).count o)
        ∧ (x.entry.monitorEn = true → .endToken x.entry.monitor (x.frame % 65536) false ∈ t.bus.out) ∧ SameMem s t)
    ∧ (∀ x, s.fseq.frameOfParity p.val = some x → x.abandoned = false → s.fseq.taskCount ≤ x.done.length →
        Completes (.frameRetire p) s fun t =>
          t.fseq.frame x.frame = none ∧ t.bus.reg (fseqB + 0x24) = x.frame % 2 ^ 32 ∧ SameMem s t)

/-- R135, R144, R145: an issued step over its budget stops its task. A reported fault of a frame class, and a frame not retired by its
ABANDON time, abandon every open frame (no rollback), each waiting to be resynchronised. When the abandoned frames have drained, none of
them is open and nothing waits. A HIST_WRITE task to be reissued starts again from its first step. No memory changes. -/
def Obligations.FaultsAbandonAndResynchronise : Prop :=
  ∀ (s : State) (p : Fin 2), s.up →
    (∀ u x fr d cycles, s.ctx u p = some x → s.fseq.frame x.frame = some fr → fetchStep s.bus x x.step = some d → x.stopped = false →
      fr.abandoned = false → x.step < x.entry.stepCount → d.budget ≠ 0 → 64 * d.budget ≤ cycles →
      (x.due ≠ none ∨ waitsOk s.bus x fr d = true) → Completes (.stepOverrun u p cycles) s fun t =>
        (t.ctx u p).map (fun y => (y.stopped, y.step)) = some (true, x.step) ∧ SameMem s t)
    ∧ (∀ x, s.fseq.frameOfParity p.val = some x → x.abandoned = false → s.fseq.rollback = false →
      (∀ task code unit step, 0x20 ≤ code.toNat → code.toNat ≤ 0x23 → Completes (.faultReport p task code unit step) s fun t =>
        (∀ y ∈ t.fseq.openFrames, y.abandoned = true) ∧ t.fseq.resync ≠ [] ∧ SameMem s t)
      ∧ (∀ now, s.bus.tref x.frame + s.abandonNs ≤ now → Completes (.abandonTimeout p now) s fun t =>
        (∀ y ∈ t.fseq.openFrames, y.abandoned = true) ∧ t.fseq.resync ≠ [] ∧ SameMem s t))
    ∧ (∀ now, s.fseq.resync ≠ [] → s.drained = true → Completes (.resyncDrained now) s fun t =>
        t.fseq.resync = [] ∧ (∀ y ∈ t.fseq.openFrames, y.abandoned = false) ∧ t.fseq.fresh = true ∧ SameMem s t)
    ∧ (∀ u x, (u, p) ∈ s.fseq.reissue → s.ctx u p = some x → Completes (.histWriteReissue u p) s fun t =>
        t.ctx u p = some { x with
          step := 0, loops := [], claims := [], loaded := [0, 0, 0, 0], owed := x.owed ++ x.tags, tags := [], told := [], due := none,
          stopped := false, reissued := true }
        ∧ (u, p) ∉ t.fseq.reissue ∧ SameMem s t)

/-- R126: a background pass over the book in RUN is counted; a book that still has its CRC changes nothing else, another stops frame
opening and is reported. R147, R148, R466: a window of the spare's test opens while the spare is free, once in a frame period, and ends at
its length: the test is cut and counted. A test not complete DTI after its first window is reported to the Junesha die; so is a test that
fails. A completed test is recorded and leaves the station's slice at zero, and no other byte changed. -/
def Obligations.BookCheckAndSpareTest : Prop :=
  (∀ (s : State) (k : Book), s.up → s.fseq.book = some k → s.bus.flag fseqB 0 = true →
      (bookCrc s.bus k.length = k.crc.toNat → Completes .crcPass s fun t =>
        t.bus.reg (fseqB + 0x21C) = Nat.min (s.bus.reg (fseqB + 0x21C) + 1) 0xFFFFFFFF ∧ OnlyRegs s t [fseqB + 0x21C])
      ∧ (bookCrc s.bus k.length ≠ k.crc.toNat → s.sd.state = .run → s.sd.latched = false → s.sdUp → Completes .crcPass s fun t =>
        t.bus.flag (fseqB + 4) 29 = true ∧ t.fseq.corrupt = true ∧ t.sd.state = .safe ∧ t.sd.latched = true ∧ t.sd.cause = 4
        ∧ t.deEnergised))
  ∧ (∀ (s : State) (now : Nat), s.up →
      (s.fseq.spareDone = false → s.bus.flag (fseqB + 0x30) 5 = false → s.spareFree = true → s.fseq.windowFrame ≠ s.bus.frameOf now →
        Completes (.bistWindowOpen now) s fun t => t.bus.flag (fseqB + 0x30) 5 = true ∧ t.fseq.windowEnd = some (now + s.bus.bistWindowNs)
          ∧ t.fseq.spareFirst = some (s.fseq.spareFirst.getD now) ∧ t.fseq.windowFrame = s.bus.frameOf now ∧ SameMem s t)
      ∧ (∀ e, s.fseq.windowEnd = some e → e ≤ now → s.bus.flag (fseqB + 0x30) 5 = true → Completes (.bistWindowEnd now) s fun t =>
          t.bus.flag (fseqB + 0x30) 5 = false ∧ t.bus.reg (fseqB + 0x214) = Nat.min (s.bus.reg (fseqB + 0x214) + 1) 0xFFFFFFFF
          ∧ SameMem s t ∧ SameRegsBut s t [fseqB + 0x30, fseqB + 0x214])
      ∧ (∀ e, s.fseq.spareFirst = some e → s.fseq.spareDone = false → e + s.bus.dtiNs ≤ now → s.sdUp → Completes (.bistOverdue now) s fun t =>
          t.bus.flag (fseqB + 4) 28 = true
          ∧ t.sd.pendingCause = some (match s.sd.pendingCause with | some c => Nat.min 3 c | none => 3) ∧ SameMem s t)
      ∧ (∀ r, s.bus.flag (fseqB + 0x30) 5 = true → s.fseq.spareDone = false → s.sdUp → Completes (.spareTestDone r now) s fun t =>
          t.fseq.spareDone = true ∧ t.bus.flag (fseqB + 0x30) 5 = false
          ∧ alook t.mgmt.stationResults s.bus.spare = some (bistRecord (s.bistPassed 14 r) r false)
          ∧ (∀ a, t.bus.rd a = if s.bus.spare * 0x400000 ≤ a ∧ a < (s.bus.spare + 1) * 0x400000 then 0 else s.bus.rd a)
          ∧ t.sd.pendingCause = (if s.bistPassed 14 r = true then s.sd.pendingCause
              else some (match s.sd.pendingCause with | some c => Nat.min 3 c | none => 3))))

/-- R164, R182, R205, R255: a station idle for IDLE_HOLD cycles and longer ramps down, a cell row every RAMP_STEP cycles and off with the
last: its ramp and the rows enabled alone change. TRAIN_EN is taken in COMMISSION. CONS_IDX is
taken unless it would put more batches in the ring than it has slots, which is counted. -/
def Obligations.RampDownTrainAndConsumerIndex : Prop :=
  ∀ (s : State), s.up →
    (∀ (i : Fin 32) (idle : Nat), s.complete →
      let hold := s.bus.field (stnB i.val + 4) 31 16
      let rows := (idle - hold) / s.bus.rampStep i.val
      (((s.stn i.val).ramp = .off ∨ idle < hold) → Completes (.rampDown ⟨i, idle⟩) s fun t => t = s)
      ∧ ((s.stn i.val).ramp ≠ .off → hold ≤ idle → Completes (.rampDown ⟨i, idle⟩) s fun t =>
        (t.stn i.val).ramp = (if 16 ≤ rows then .off else .down)
        ∧ t.bus.field (stnB i.val) 5 1 = (if 16 ≤ rows then 0 else Nat.min (s.bus.field (stnB i.val) 5 1) (15 - rows))
        ∧ SameMem s t ∧ SameRegsBut s t [stnB i.val] ∧ (∀ j, j ≠ i.val → t.stn j = s.stn j)))
    ∧ (∀ g v, Completes (.trainEn g v) s fun t =>
        t.bus.flag (gmeB g.val) 1 = (v && decide (s.sd.state = .commission)) ∧ OnlyRegs s t [gmeB g.val])
    ∧ (∀ (e : Fin 2) (v : Word), (e.val = 0 ∨ s.bus.variant.isX2 = true) →
        ((s.bus.reg (ringB e.val + 0x14) + 2 ^ 32 - v.toNat) % 2 ^ 32 ≤ s.bus.ringSlots e.val → Completes (.consIdxWrite e v) s fun t =>
          t.bus.reg (ringB e.val + 0x18) = v.toNat ∧ OnlyRegs s t [ringB e.val + 0x18])
        ∧ (s.bus.ringSlots e.val < (s.bus.reg (ringB e.val + 0x14) + 2 ^ 32 - v.toNat) % 2 ^ 32 → Completes (.consIdxWrite e v) s fun t =>
          t.bus.reg (smeB + 0x428) = Nat.min (s.bus.reg (smeB + 0x428) + 1) 0xFFFFFFFF ∧ OnlyRegs s t [smeB + 0x428]))

/-- R214, R215: at a camera window the camera registers are latched for its frame. A packet on a channel that no enabled binding names is
counted as unbound and does nothing else; one whose header fails its check (R212) is counted for its binding and does nothing else. On an
enabled binding of good format, for a perception frame whose bank is released and which is not yet published, it begins a camera frame:
counted as started and as assigned, with no line yet; ACTIVE is set. -/
def Obligations.CameraFramesStart : Prop :=
  ∀ (s : State) (d : Fin 2) (rx : Fin 8) (vc : Fin 4) (seq : BitVec 16) (f now : Nat), s.up → s.complete → s.hasCam d = true →
    (s.bus.frameOf (now + s.bus.camLead d.val : Nat) = some f → (∀ l ∈ (s.cam d.val).latches, l.1 < f) →
      (∀ g, (s.cam d.val).lastPub = some g → g < f) → Completes (.cameraWindowOpen d f now) s fun t =>
        alook (t.cam d.val).latches f = some s.bus.regs ∧ SameMem s t ∧ SameRegsBut s t [camB d.val + 4])
    ∧ (∀ hdr, s.bus.camPhyOn d.val rx.val = true → s.camBinding d.val rx.val vc.val = none →
        Completes (.csiFrameStart d rx ⟨vc, hdr⟩ seq now) s fun t => Counted s t (camB d.val + 0xC00) ∧ OnlyRegs s t [camB d.val + 0xC00])
    ∧ (∀ k, s.bus.camPhyOn d.val rx.val = true → s.camBinding d.val rx.val vc.val = some k →
        Completes (.csiFrameStart d rx ⟨vc, .failed⟩ seq now) s fun t => Counted s t (camCnt d.val k 10) ∧ OnlyRegs s t [camCnt d.val k 10])
    ∧ (∀ k tc, s.bus.camPhyOn d.val rx.val = true → (s.camBinding d.val rx.val vc.val).isSome = true → s.camAssign d.val rx.val vc.val (now / 2 * 2) = some (k, f, tc) →
        (s.cam d.val).active k = none → s.bus.flag (camB d.val) 0 = true → (s.camRegs d.val f).camUsable d.val k = true →
        s.bus.waitGe ((s.bus.field (camB d.val + 0x20) 29 16 + f % 2) % 16384)
          (if f % 2 = 0 then (s.cam d.val).published0 else (s.cam d.val).published1) = true →
        (∀ g, (s.cam d.val).lastPub = some g → g < f) →
        (∀ o ∈ ((s.camRegs d.val f).camFmt d.val k).blank, s.bus.holds ((s.camRegs d.val f).reg64 (camAt d.val k + 0x10 + 8 * (f % 2)) + o) 1) →
        Completes (.csiFrameStart d rx ⟨vc, .ok⟩ seq now) s fun t =>
          ((t.cam d.val).active k).map (fun x => (x.frame, x.seq, x.lines, x.tcam)) = some (f, seq, 0, tc.toNat)
          ∧ Counted s t (camCnt d.val k 0) ∧ Counted s t (camCnt d.val k 1) ∧ t.bus.flag (camB d.val + 4) k = true)

/-- R212, R217, R222, R223: a line of the camera frame in reception, of its data type, length and CRC, is its next line: its samples stand
at their places of the channel-blocked layout, and no other byte changes, nor any register but the history cache's counts of its accesses.
A frame end after the last line ends the frame, which is then no longer in reception. -/
def Obligations.CameraLinesAreStored : Prop :=
  ∀ (s : State) (d : Fin 2) (rx : Fin 8) (vc : Fin 4) (k : Nat) (x : CamFrame), s.up → s.complete → s.hasCam d = true →
    s.bus.camPhyOn d.val rx.val = true → s.bus.flag (camB d.val) 0 = true →
    s.camBinding d.val rx.val vc.val = some k →
    (s.cam d.val).active k = some x →
    (∀ y ∈ (s.cam d.val).frames, y.k = k → y.ended = false → y.stopped = false → y.frame = x.frame) →
    let c := (s.camRegs d.val x.frame).camFmt d.val k
    let base := (s.camRegs d.val x.frame).reg64 (camAt d.val k + 0x10 + 8 * x.bank)
    (∀ (dt : Byte) (payload : List Byte), dt.toNat = c.dt → x.lines < c.h → x.busErr = false → (linePixels c.dt payload).length = c.w →
      (∀ o ∈ c.line x.lines (linePixels c.dt payload), s.bus.holds (base + o.1) 1) →
      ((c.line x.lines (linePixels c.dt payload)).map (·.1)).Nodup →
      Completes (.csiLine d rx vc dt payload .ok true) s fun t =>
        ((t.cam d.val).active k).map (fun y => (y.frame, y.lines, y.lineErr)) = some (x.frame, x.lines + 1, x.lineErr)
        ∧ (∀ o ∈ c.line x.lines (linePixels c.dt payload), t.bus.rd (base + o.1) = o.2)
        ∧ (∀ a, (∀ o ∈ c.line x.lines (linePixels c.dt payload), a ≠ base + o.1) → t.bus.rd a = s.bus.rd a)
        ∧ SameRegsBut s t [hcB + 0x400, hcB + 0x404])
    ∧ (∀ now, x.lines = c.h → Completes (.csiFrameEnd d rx ⟨vc, .ok⟩ now) s fun t =>
        ((t.cam d.val).frames.filter (fun y => decide (y.k = k ∧ y.frame = x.frame))).map (·.ended) = [true]
        ∧ t.bus.flag (camB d.val + 4) k = false ∧ SameMem s t)

/-- R216: when the window of the next latched frame has closed and its camera frames have ended with their poses, and in any case when the
grace has passed, the frame is published: it is the last published, its bank's count and the publish object advance by one, and it is
latched no longer. -/
def Obligations.CameraFramesArePublished : Prop :=
  ∀ (s : State) (d : Fin 2) (f now : Nat), s.up → s.complete → (s.cam d.val).next = some f → s.bus.flag (camB d.val) 0 = true →
    s.bus.holds ((s.camRegs d.val f).reg64 (camB d.val + 0x10 + 8 * (f % 2))) 0x400 →
    s.bus.kind (s.bus.field (camB d.val + 0x20) 13 0) ≠ 1 →
    let published (t : State) : Prop := (t.cam d.val).lastPub = some f
      ∧ (t.cam d.val).published0 = (s.cam d.val).published0 + (if f % 2 = 0 then 1 else 0)
      ∧ (t.cam d.val).published1 = (s.cam d.val).published1 + (if f % 2 = 0 then 0 else 1)
      ∧ alook (t.cam d.val).latches f = none
      ∧ t.bus.count (s.bus.field (camB d.val + 0x20) 13 0) = (s.bus.count (s.bus.field (camB d.val + 0x20) 13 0) + 1) % 2 ^ 32
    (s.camWindowEnd d.val f ≤ now → (∀ x ∈ (s.cam d.val).frames, x.frame = f → x.ended = true ∧ x.poseDone = true) →
      Completes (.camPublish d now) s published)
    ∧ (s.camWindowEnd d.val f + ((s.camRegs d.val f).field (camB d.val + 0x0C) 15 0 * 1000 : Nat) ≤ now →
      Completes (.camGraceExpiry d now) s published)

/-- R249, R295, R247: a verdict is kept for its frame's batch, and every guard present holds its frame, token and VALID, which is 0 once the
safe state is latched. A batch with its records and its verdict is committed: it takes the next SEQ, its header names its frame and is
VALID exactly when the verdict is, came in time, there are records and the frame has no fault; no byte outside the 64 of the header
changes. -/
def Obligations.VerdictsAndBatchCommits : Prop :=
  ∀ (s : State), s.up →
    (∀ v : Verdict, Completes (.verdictReceived v) s fun t =>
      t.select.verdicts.getLast? = some v
      ∧ (∀ d ∈ ioDies s.bus.variant, t.bus.reg (guardAt d v.frame) = v.frame % 2 ^ 32 ∧ t.bus.reg (guardAt d v.frame + 8) = v.token.toNat
          ∧ t.bus.flag (guardAt d v.frame + 12) 0 = (v.valid && !s.sd.latched))
      ∧ SameMem s t ∧ t.sd = s.sd)
    ∧ (∀ f now x v, s.select.batch f = some x → x.recordsDone = true → x.committed = false → x.verdict = some v → s.bankFree f = true →
        s.inSweep = false → s.bus.holds (s.bus.batchBase f) 64 →
        Completes (.batchCommit f now) s fun t =>
          (t.select.batch f).map (fun y => (y.committed, y.seq.toNat)) = some (true, s.bus.reg (smeB + 0x20))
          ∧ t.bus.reg (smeB + 0x20) = (s.bus.reg (smeB + 0x20) + 1) % 2 ^ 32 ∧ t.bus.reg (smeB + 0x24) = f % 2 ^ 32
          ∧ fld (t.bus.rdN (s.bus.batchBase f) 64) 0 4 = f % 2 ^ 32
          ∧ bit (fld (t.bus.rdN (s.bus.batchBase f) 64) 0x14 2) 0
              = (v.valid && decide (now < v.deadline) && decide (x.slots ≠ 0) && x.cause.isNone)
          ∧ SameMemBut s t (s.bus.batchBase f) 64)

/-- R253 to R255: a committed batch whose header the guard of its endpoint lets pass is copied whole into the ring's next slot while the
ring has room and the endpoint can issue: the host reads the batch there and PROD_IDX has advanced; a batch the guard refuses leaves host
memory as it was, and one that finds the ring full or the endpoint down is dropped and counted. In each case the batch is disposed of on
that ring and device memory stays. (No injection sweep is running: R356.) -/
def Obligations.HostRingsTakeTheBatchesTheGuardPasses : Prop :=
  ∀ (s : State) (e : Fin 2) (f : Nat) (x : Batch), s.up → s.select.batch f = some x → x.committed = true →
    (if e.val = 0 then x.ring0 else x.ring1) = false → s.inSweep = false →
    let data := s.bus.rdN (s.bus.localAddr (s.bus.batchBase x.frame)) (64 + 64 * x.slots)
    let slot := s.bus.reg64 (ringB e.val) + s.bus.reg (ringB e.val + 0x14) % s.bus.ringSlots e.val * 0x41000
    let idx := s.bus.reg64 (ringB e.val + 8)
    let host (t : State) : Mem := if e.val = 0 then t.bus.host0 else t.bus.host1
    (s.mayLeave e.val data = true → s.bus.ringFill e.val < s.bus.ringSlots e.val → s.plat.pcieDown.contains e.val = false →
      s.plat.pcieReset.contains e.val = false → Completes (.ringCopy e f) s fun t =>
        ((slot + data.length ≤ idx ∨ idx + 4 ≤ slot) → (host t).rdN slot data.length = data)
        ∧ t.bus.reg (ringB e.val + 0x14) = (s.bus.reg (ringB e.val + 0x14) + 1) % 2 ^ 32
        ∧ leNat ((host t).rdN idx 4) = (s.bus.reg (ringB e.val + 0x14) + 1) % 2 ^ 32
        ∧ (∀ a, (a < slot ∨ slot + data.length ≤ a) → (a < idx ∨ idx + 4 ≤ a) → (host t).rd a = (host s).rd a)
        ∧ Counted s t (egrdB e.val + 0x200) ∧ SameMem s t)
    ∧ (s.mayLeave e.val data = true →
      (s.bus.ringSlots e.val ≤ s.bus.ringFill e.val ∨ s.plat.pcieDown.contains e.val = true ∨ s.plat.pcieReset.contains e.val = true) →
      Completes (.ringCopy e f) s fun t =>
        host t = host s ∧ Counted s t (smeB + 0x420 + 4 * e.val) ∧ t.bus.flag (smeB + 4) 29 = true ∧ Counted s t (egrdB e.val + 0x200)
        ∧ SameMem s t ∧ SameRegsBut s t [egrdB e.val + 0x200, smeB + 0x420 + 4 * e.val, smeB + 4])
    ∧ (s.mayLeave e.val data = false → Completes (.ringCopy e f) s fun t =>
        host t = host s ∧ Counted s t (egrdB e.val + 0x204) ∧ t.bus.out = .guardRefuse x.frame :: s.bus.out ∧ SameMem s t
        ∧ SameRegsBut s t [egrdB e.val + 0x204])

/-- R260, R264, R267, R270: channel control. START on an idle, unbooked channel with a transfer in order that has work begins it at its
first row, in RUN; on a booked or busy channel, or with a bad transfer, it only sets CFG_ERR, counted. PAUSE moves a channel with work left
to PAUSING, the last write to PAUSED, the clearing of PAUSE back to RUN, ABORT to STOPPING, the last write then to IDLE with ABORTED. No
memory changes. R268, R271: pacing, laps and errors. A PACED channel runs again once its fill is at most the low mark. The end of a lap,
with ACK once all its writes are acknowledged, sets FULL, and HALF if it has not come; a circular channel counts the lap and starts over,
another goes to IDLE. The first error of a running channel takes it to STOPPING, and is recorded with its code, side and row when the
channel has drained. No memory changes. -/
def Obligations.DmaChannelsAreControlledAndPaced : Prop :=
  (∀ (s : State) (c : Fin 64), s.up → s.complete →
      (s.bus.booked c.val = false → s.bus.chState c.val = 0 → s.bus.startBad c.val = false → s.bus.flag (chB c.val + 0x3C) 1 = false →
        s.bus.field (chB c.val + 0x1C) 16 0 ≠ 0 → s.bus.field (chB c.val + 0x18) 24 0 ≠ 0 → Completes (.dmaStart c) s fun t =>
          t.bus.chState c.val = 1 ∧ t.bus.reg (chB c.val + 0x58) = 0 ∧ t.bus.reg (chB c.val + 0x5C) = 0 ∧ t.bus.reg (chB c.val + 0x60) = 0
          ∧ (t.ch c.val).written = 0 ∧ (t.ch c.val).buf = [] ∧ SameMem s t)
      ∧ ((s.bus.booked c.val = true ∨ s.bus.chState c.val ≠ 0 ∨ s.bus.startBad c.val = true) → Completes (.dmaStart c) s fun t =>
          t.bus.flag (chB c.val + 0x40) 29 = true ∧ Counted s t (engB c.val + 0x11C)
          ∧ OnlyRegs s t [chB c.val + 0x40, engB c.val + 0x11C])
      ∧ (s.bus.booked c.val = true → ∀ i ∈ [Instr.dmaPause c, .dmaResume c, .dmaAbort c, .dmaFence c], Completes i s fun t =>
          t.bus.flag (chB c.val + 0x40) 29 = true ∧ Counted s t (engB c.val + 0x11C)
          ∧ OnlyRegs s t [chB c.val + 0x40, engB c.val + 0x11C])
      ∧ (s.bus.booked c.val = false → Completes (.dmaPause c) s fun t =>
          t.bus.flag (chB c.val + 0x3C) 1 = true
          ∧ t.bus.chState c.val = (if (s.bus.chState c.val = 1 ∨ s.bus.chState c.val = 2)
              ∧ (s.bus.lapDone c.val = false ∨ s.bus.chCirc c.val = true) then 3 else s.bus.chState c.val)
          ∧ OnlyRegs s t [chB c.val + 0x3C, chB c.val + 0x40])
      ∧ (s.bus.chState c.val = 3 → (s.ch c.val).buf = [] → Completes (.dmaPaused c) s fun t =>
          t.bus.chState c.val = (if s.bus.flag (chB c.val + 0x3C) 1 = true then 4 else 1) ∧ Counted s t (engB c.val + 0x110)
          ∧ OnlyRegs s t [chB c.val + 0x40, engB c.val + 0x110])
      ∧ (s.bus.booked c.val = false → Completes (.dmaResume c) s fun t =>
          t.bus.flag (chB c.val + 0x3C) 1 = false ∧ t.bus.chState c.val = (if s.bus.chState c.val = 4 then 1 else s.bus.chState c.val)
          ∧ OnlyRegs s t [chB c.val + 0x3C, chB c.val + 0x40])
      ∧ (s.bus.booked c.val = false → Completes (.dmaAbort c) s fun t =>
          t.bus.chState c.val = (if s.bus.chState c.val = 0 then 0 else 5) ∧ SameMem s t ∧ SameRegsBut s t [chB c.val + 0x40]
          ∧ (s.bus.chState c.val ≠ 0 → s.bus.chState c.val ≠ 5 → (t.ch c.val).aborted = true))
      ∧ (s.bus.chState c.val = 5 → (s.ch c.val).buf = [] → Completes (.dmaStopped c) s fun t =>
          t.bus.chState c.val = 0 ∧ (t.ch c.val).fail = none ∧ (t.ch c.val).aborted = false
          ∧ ((s.ch c.val).aborted = true → t.bus.flag (chB c.val + 0x40) 26 = true)
          ∧ (∀ e, (s.ch c.val).fail = some e → t.bus.flag (chB c.val + 0x40) 31 = true
              ∧ t.bus.reg (chB c.val + 0x70) = e.code % 16 * 2 ^ 28 + b2n e.write * 2 ^ 27 + e.row % 2 ^ 17
              ∧ t.bus.reg64 (chB c.val + 0x68) = e.addr % 2 ^ 64)
          ∧ SameMem s t))
  ∧ (∀ (s : State) (c : Fin 64), s.up → s.complete →
      (s.bus.chState c.val = 2 → s.fill c.val ≤ (s.bus.field (chB c.val + 0x30) 15 0 : Int) → Completes (.paceResume c) s fun t =>
        t.bus.chState c.val = 1 ∧ OnlyRegs s t [chB c.val + 0x40])
      ∧ ((s.bus.chState c.val = 1 ∨ s.bus.chState c.val = 2 ∨ s.bus.chState c.val = 3) → s.bus.lapDone c.val = true →
          (s.bus.chAck c.val = true → s.chTags c.val = []) → Completes (.lapEnd c) s fun t =>
            t.bus.flag (chB c.val + 0x40) 27 = true ∧ ((s.ch c.val).half = false → t.bus.flag (chB c.val + 0x40) 28 = true)
            ∧ (s.bus.chCirc c.val = true → t.bus.chState c.val = s.bus.chState c.val
                ∧ t.bus.reg (chB c.val + 0x60) = (s.bus.reg (chB c.val + 0x60) + 1) % 2 ^ 32 ∧ t.bus.reg (chB c.val + 0x58) = 0)
            ∧ (s.bus.chCirc c.val = false → t.bus.chState c.val = 0) ∧ (t.ch c.val).lapBytes = 0 ∧ SameMem s t)
      ∧ (∀ code write addr, s.bus.chState c.val ≠ 0 → (s.ch c.val).fail = none → Completes (.dmaError c code write addr) s fun t =>
          t.bus.chState c.val = 5 ∧ ((t.ch c.val).fail).map (fun e => (e.code, e.write, e.addr)) = some (code.toNat, write, addr.toNat)
          ∧ SameMem s t ∧ SameRegsBut s t [chB c.val + 0x40]))

/-- R269: on a channel that is not booked, a write of 1 to FENCE clears FENCED, and FENCED becomes 1 when every write that the channel
issued before it has been performed; on an idle channel whose writes are all performed the write sets FENCED at once. -/
def Obligations.FencedFollowsTheWritesBeforeTheFence : Prop :=
  ∀ (s : State) (c : Fin 64), s.up → s.complete →
    (s.bus.booked c.val = false →
      (s.bus.chState c.val = 0 ∧ s.chTags c.val = [] → Completes (.dmaFence c) s fun t =>
        t.bus.flag (chB c.val + 0x40) 25 = true ∧ (t.ch c.val).fencing = false ∧ SameMem s t ∧ SameRegsBut s t [chB c.val + 0x40])
      ∧ (¬(s.bus.chState c.val = 0 ∧ s.chTags c.val = []) → Completes (.dmaFence c) s fun t =>
        t.bus.flag (chB c.val + 0x40) 25 = false ∧ (t.ch c.val).fencing = true ∧ (t.ch c.val).fence = (s.chTags c.val).map (·.1)
        ∧ SameMem s t ∧ SameRegsBut s t [chB c.val + 0x40]))
    ∧ ((s.ch c.val).fencing = true → (∃ w ∈ s.chTags c.val, w.1 ∈ (s.ch c.val).fence) → Completes (.fenced c) s fun t => t = s)
    ∧ ((s.ch c.val).fencing = true → (∀ w ∈ s.chTags c.val, w.1 ∉ (s.ch c.val).fence) → Completes (.fenced c) s fun t =>
        t.bus.flag (chB c.val + 0x40) 25 = true ∧ (t.ch c.val).fencing = false ∧ SameMem s t ∧ SameRegsBut s t [chB c.val + 0x40])
    ∧ ((s.ch c.val).fencing = false → Completes (.fenced c) s fun t => t = s)

/-- R261, R267: a running, unpaced channel that copies between local memory, neither reshuffling nor indexed, writes its next piece: the
source bytes of the present row, from the byte it stands at, as far as one source line's worth and one destination line go. No other byte
changes, and the line is counted. -/
def Obligations.DmaLinesAreCopied : Prop :=
  ∀ (s : State) (c : Fin 64), s.up → s.complete →
    let r := s.bus.reg (chB c.val + 0x58)
    let k := s.bus.reg (chB c.val + 0x5C)
    let n := Nat.min 64 (s.bus.field (chB c.val + 0x18) 24 0 - k)
    let src := (s.bus.srcRow c.val r + k) % 2 ^ 64
    let dst := (s.bus.dstRow c.val r + k) % 2 ^ 64
    let m := Nat.min n (64 - dst % 64)
    s.bus.flag (engB c.val) 0 = true → s.bus.chState c.val = 1 → (s.ch c.val).buf = [] → s.bus.field (chB c.val + 0x2C) 31 23 = 0 →
    s.bus.flag (chB c.val + 0x34) 31 = false → r < s.bus.field (chB c.val + 0x1C) 16 0 → 0 < n → s.bus.holds src n → s.bus.holds dst n →
    Completes (.dmaLineWrite c) s fun t =>
      t.bus.rdN dst m = s.bus.rdN src m ∧ SameMemBut s t dst m ∧ (t.ch c.val).written = (s.ch c.val).written + 1
      ∧ Counted s t (engB c.val + 0x104)

/-- R304, R314 to R316: SUBMIT while nothing is granted or pending is granted where no check refuses it, and the configuration copy that is
not current is then written under the update's CAL_SEQ; it is otherwise refused with its code; while one is granted or pending, it is only
counted. APPLY of a granted update starts the write of the flash slot that is not in force, another is only counted. The written record is
in force, with the update's CAL_SEQ, and makes the update pending. WITHDRAW drops a grant; a pending update stays. No memory and no table
entry changes. -/
def Obligations.CalibrationUpdatesAreGrantedWrittenAndWithdrawn : Prop :=
  ∀ (s : State), s.up →
    (s.bus.calBusy = false → s.submitCode = 0 → Completes .submit s fun t =>
      let g : State := { s with
        bus := (s.bus.setFlag (cleB + 4) 0 true).inc (cleB + 0x114), calib := { s.calib with grantState := s.sd.state.code } }
      let other := if s.mgmt.cfgSource = 0 then 1 else 0
      let seq : Word := BitVec.ofNat 32 (fld s.bus.stage 0 4)
      t.bus = g.bus ∧ t.calib = g.calib ∧ t.sd = s.sd ∧ t.bus.flag (cleB + 4) 0 = true ∧ Counted s t (cleB + 0x114)
      ∧ (g.copyFits = true →
          (t.mgmt.copy other).valid = true ∧ (t.mgmt.copy other).seq = seq ∧ (t.mgmt.copy other).calSeq = seq
          ∧ (t.mgmt.copy other).records = g.copyRecords ∧ t.mgmt.copy (1 - other) = s.mgmt.copy (1 - other)))
    ∧ (s.bus.calBusy = false → s.submitCode ≠ 0 → Completes .submit s fun t =>
        t.bus.flag (cleB + 4) 30 = true ∧ t.bus.field (cleB + 4) 19 16 = s.submitCode ∧ Counted s t (cleB + 0x118)
        ∧ OnlyRegs s t [cleB + 4, cleB + 0x118])
    ∧ (s.bus.calBusy = true → Completes .submit s fun t => Counted s t (cleB + 0x120) ∧ OnlyRegs s t [cleB + 0x120])
    ∧ (s.bus.flag (cleB + 4) 0 = true → Completes .apply s fun t =>
        t = { s with calib := { s.calib with writing := true }, sd := t.sd } ∧ t.sd = s.sd.putCalRec {})
    ∧ (s.bus.flag (cleB + 4) 0 = false → Completes .apply s fun t => Counted s t (cleB + 0x120) ∧ OnlyRegs s t [cleB + 0x120])
    ∧ (∀ now, s.calib.writing = true → Completes (.calFlashWritten now) s fun t =>
        t.bus.flag (cleB + 4) 0 = false ∧ t.bus.flag (cleB + 4) 1 = true ∧ t.calib.pendingAt = some now ∧ t.calib.writing = false
        ∧ t.sd.calNow.valid = true ∧ t.sd.calNow.calSeq.toNat = fld s.bus.stage 0 4 ∧ t.sd.calNow.seq = s.sd.calNow.seq + 1 ∧ SameMem s t)
    ∧ (s.bus.flag (cleB + 4) 1 = false → Completes .withdraw s fun t =>
        t.bus.flag (cleB + 4) 0 = false ∧ t.calib.writing = false ∧ SameMem s t ∧ SameRegsBut s t [cleB + 4])
    ∧ (s.bus.flag (cleB + 4) 1 = true → Completes .withdraw s fun t => t = s)

/-- R277, R284: TIME_SET with a step permitted holds the step until the next alignment, which adds it to device time, counts it and sets
STEPPED; where a step is not permitted, either is refused and counted and device time stays. Nothing held, an alignment changes nothing. -/
def Obligations.TimeStepsAtAlignments : Prop :=
  ∀ (s : State) (now : Nat), s.up →
    (∀ v : BitVec 64, s.stepOk = true → Completes (.timeSet v) s fun t =>
      t = { s with net := { s.net with held := some ((v.toNat * 65536 : Nat) - s.net.fine, false), decided := s.net.fine } })
    ∧ (∀ v : BitVec 64, s.stepOk = false → Completes (.timeSet v) s fun t =>
      t.bus.flag (timeB 0 + 4) 29 = true ∧ Counted s t (timeB 0 + 0x10C) ∧ OnlyRegs s t [timeB 0 + 4, timeB 0 + 0x10C])
    ∧ (s.net.held = none → Completes (.timeAlign now) s fun t => t = s.at now)
    ∧ (∀ o v, s.net.held = some (o, v) → s.stepOk = true → Completes (.timeAlign now) s fun t =>
        t.net.fine = (((s.at now).net.fine + o).toNat : Nat) ∧ t.net.held = none ∧ Counted s t (timeB 0 + 0x108)
        ∧ t.bus.flag (timeB 0 + 4) 28 = true ∧ SameMem s t ∧ SameRegsBut s t [timeB 0 + 4, timeB 0 + 0x108])
    ∧ (∀ o v, s.net.held = some (o, v) → s.stepOk = false → Completes (.timeAlign now) s fun t =>
        t.net.fine = (s.at now).net.fine ∧ t.net.held = none ∧ Counted s t (timeB 0 + 0x10C) ∧ t.bus.flag (timeB 0 + 4) 29 = true
        ∧ SameMem s t ∧ SameRegsBut s t [timeB 0 + 4, timeB 0 + 0x10C])

/-- R282, R283, R285: the servo. SERVO_EN and SERVO_RESET start it: ACQUIRE with a slave port, else FREE. A Sync or Follow_Up that is not of
the master changes nothing; a two-step Sync of the master waits for its Follow_Up, a one-step Sync and the matching Follow_Up are measured:
OFFSET is ingress − origin − correction − MEAN_LINK_DELAY − ASYM. Without a measurement for SYNC_TIMEOUT a LOCKED servo is in HOLDOVER. A
HOLDOVER too long in RUN enters the safe state with cause 6, MECH_CAUSE TIME_HOLDOVER. -/
def Obligations.TheServoFollowsItsMaster : Prop :=
  ∀ (s : State) (now : Nat), s.up →
    let begun (b : Bus) : Servo := if b.flag (timeB 0) 0 && b.slavePort.isSome then .acquire else .free
    (∀ v, s.bus.flag (timeB 0) 0 ≠ v → Completes (.servoEn v) s fun t =>
      t.bus.flag (timeB 0) 0 = v ∧ t.net.servo = begun t.bus ∧ SameMem s t ∧ SameRegsBut s t [timeB 0, timeB 0 + 4])
    ∧ (∀ v, s.bus.flag (timeB 0) 0 = v → Completes (.servoEn v) s fun t => t = s)
    ∧ (s.stepOk = true → Completes .servoReset s fun t =>
        t.net.integ = 0 ∧ t.bus.flag (timeB 0 + 4) 28 = false ∧ t.net.servo = begun s.bus ∧ SameMem s t ∧ SameRegsBut s t [timeB 0 + 4])
    ∧ (∀ m : SyncMsg, s.bus.fromMaster m.port.val m.domain = false → Completes (.ptpSync m now) s fun t => t = s.at now)
    ∧ (∀ m : SyncMsg, s.bus.fromMaster m.port.val m.domain = true → m.twoStep = true → Completes (.ptpSync m now) s fun t =>
        t.net.syncPend = some m ∧ Counted s t (timeB 0 + 0x100) ∧ SameMem s t ∧ SameRegsBut s t [timeB 0 + 0x100, timeB 0 + 0x104])
    ∧ (∀ m : SyncMsg, s.bus.fromMaster m.port.val m.domain = true → m.twoStep = false → s.net.held = none →
        Completes (.ptpSync m now) s fun t => t.net.lastMeas = now ∧ t.net.syncPend = none
          ∧ t.bus.reg64 (timeB 0 + 0x40) = toU 64 (s.bus.offset m.port.val m.ingress m.origin m.correction) ∧ SameMem s t)
    ∧ (∀ (m : FollowUpMsg) (y : SyncMsg), s.net.syncPend = some y → s.bus.fromMaster m.port.val m.domain = true → y.port = m.port →
        y.seqId = m.seqId → s.net.held = none → Completes (.ptpFollowUp m now) s fun t => t.net.lastMeas = now ∧ t.net.syncPend = none
          ∧ t.bus.reg64 (timeB 0 + 0x40) = toU 64 (s.bus.offset m.port.val y.ingress m.origin (y.correction + m.correction)) ∧ SameMem s t)
    ∧ (s.net.syncPend = none → ∀ m, Completes (.ptpFollowUp m now) s fun t => t = s.at now)
    ∧ (s.net.servo = .locked → s.net.lastMeas + s.bus.field (timeB 0 + 0x2C) 15 0 * 1000000 ≤ now → Completes (.syncTimeout now) s fun t =>
        t.net.servo = .holdover ∧ t.net.holdSince = now ∧ Counted s t (timeB 0 + 0x114) ∧ t.bus.field (timeB 0 + 4) 1 0 = 3 ∧ SameMem s t)
    ∧ (s.net.servo = .holdover → s.net.holdSince + s.bus.field (timeB 0 + 0x2C) 31 16 * 1000000000 < now →
        Completes (.holdoverAlarm now) s fun t => t.bus.flag (timeB 0 + 4) 30 = true
          ∧ (s.sd.state = .run → s.sd.latched = false → s.sdUp →
              t.sd.state = .safe ∧ t.sd.latched = true ∧ t.sd.cause = 6 ∧ t.sd.mech.toNat = 0x03000000 ∧ t.deEnergised))

/-- R289, R290: CONFIG_CHANGE takes the administrative list for the first cycle start at least 2 µs later and sets PENDING; while one is
pending it is refused with CHANGE_ERR. At its instant the list comes into operation, PENDING clears and LIST_SEL changes over. The end of an
interval moves the port's list to the entry of that instant. No other port changes. -/
def Obligations.GateListsChangeOver : Prop :=
  ∀ (s : State) (p : Fin 16) (now : Nat), s.up → s.complete →
    let others (t : State) : Prop := ∀ i, i ≠ p.val → t.net.port i = s.net.port i
    ((p.val < 8 ∨ s.bus.variant.isX2 = true) → s.bus.flag (gateB p.val + 0x10) 30 = false → Completes (.configChange p now) s fun t =>
      t.bus.flag (gateB p.val + 0x10) 30 = true
      ∧ t.net.port p.val = { s.net.port p.val with
          pend := some ((s.bus.adminList p.val).firstCycle (now + 2000), s.bus.adminList p.val) }
      ∧ others t ∧ SameMem s t ∧ SameRegsBut s t [gateB p.val + 0x10])
    ∧ ((p.val < 8 ∨ s.bus.variant.isX2 = true) → s.bus.flag (gateB p.val + 0x10) 30 = true → Completes (.configChange p now) s fun t =>
      t.bus.flag (gateB p.val + 0x10) 31 = true ∧ OnlyRegs (s.at now) t [gateB p.val + 0x10])
    ∧ (∀ u g, (s.net.port p.val).pend = some (u, g) → u ≤ now → Completes (.gateListSwap p now) s fun t =>
        t.net.port p.val = { s.net.port p.val with gate := g.moveTo now, pend := none }
        ∧ t.bus.flag (gateB p.val + 0x10) 30 = false
        ∧ t.bus.flag (gateB p.val + 0x10) 29 = !(s.bus.flag (gateB p.val + 0x10) 29)
        ∧ others t ∧ SameMem s t ∧ SameRegsBut s t [gateB p.val + 0x10])
    ∧ Completes (.gateIntervalEnd p now) s (fun t =>
        t.net.port p.val = { s.net.port p.val with gate := (s.net.port p.val).gate.moveTo now } ∧ others t ∧ t.bus = s.bus)

/-- R286, R288, R291, R292, R300: the sensor ports. The frame at the head of the queue that may start leaves it and appears on the line at
that instant, counted; one that can never be sent is dropped and counted. A port whose link goes down loses its queued frames. A read of
TX_STAMP's last word takes the stamp from its queue. An address not heard of for 300 s is forgotten, and no other. -/
def Obligations.SensorPortsSendDropAndForget : Prop :=
  ∀ (s : State) (p : Fin 16) (q : Fin 8) (now : Nat), s.up → s.complete →
    (∀ f, (s.net.port p.val).head q.val = some f → s.neverSent p.val q.val now f = none → (s.net.port p.val).busyUntil ≤ 1000 * now →
      s.canStart p.val q.val now f = true → (∀ k, q.val < k → (s.net.port p.val).head k = none) →
      (∃ t0, f.origin = .forwarded t0) → ptpEvent f.bytes = none → Completes (.ethFrameTx p q none now) s fun t =>
        t.bus.out = .eth p.val f.bytes now :: s.bus.out ∧ (t.net.port p.val).queues = dropHead q.val (s.net.port p.val).queues
        ∧ Counted s t (ethB p.val + 0x108) ∧ SameMem s t ∧ SameRegsBut s t [ethB p.val + 0x108])
    ∧ (∀ f k, (s.net.port p.val).head q.val = some f → s.neverSent p.val q.val now f = some k → (∃ t0, f.origin = .forwarded t0) →
        Completes (.ethFrameTx p q none now) s fun t =>
          t.bus.out = s.bus.out ∧ (t.net.port p.val).queues = dropHead q.val (s.net.port p.val).queues ∧ Counted s t (ethB p.val + k)
          ∧ SameMem s t ∧ SameRegsBut s t [ethB p.val + k])
    ∧ ((p.val < 8 ∨ s.bus.variant.isX2 = true) →
        (∀ sp, Completes (.ethLinkChange p true sp) s fun t => t.bus.flag (ethB p.val + 4) 30 = true
          ∧ t.bus.field (ethB p.val + 4) 29 28 = sp.val ∧ OnlyRegs s t [ethB p.val + 4])
        ∧ (∀ sp, Completes (.ethLinkChange p false sp) s fun t => t.bus.flag (ethB p.val + 4) 30 = false
          ∧ (t.net.port p.val).queues = [] ∧ SameMem s t ∧ SameRegsBut s t [ethB p.val + 4, ethB p.val + 0x10C])
        ∧ (∀ r e es, (s.net.port p.val).stamps = e :: es → Completes (.txStampPop r p) s fun t =>
          t.bus.out = .readData r (ethB p.val + 0x3C) 1 :: s.bus.out ∧ (t.net.port p.val).stamps = es ∧ SameMem s t ∧ SameRegsBut s t []))
    ∧ (∀ d mac, Completes (.macAging d mac now) s fun t =>
        (∀ e, e ∈ t.net.macs ↔ e ∈ s.net.macs ∧ ¬(e.1 = d.val ∧ e.2.1 = mac ∧ e.2.2.2 + 300000000000 ≤ now)) ∧ t.bus = s.bus)

/-- R326 to R329, R334, R337: what the checker gathers for a frame. A copy of a checker sensor that comes before the grid closes is counted
for its sensor, and its points into the cells' ANY; one that does not decode, and one that comes later, makes the frame unchecked and is
counted. The grid closes at its instant, and outside RUN no frozen stream is looked for. The network done, exactly the cells of R329 are
occupied. A record with a good CRC16 is kept, another is counted. The end mark in time ends the frame; later it only counts. No other
frame changes and no memory. -/
def Obligations.CheckerFramesAreFormed : Prop :=
  ∀ (s : State) (f now : Nat), s.sdUp →
    (∀ (port : Fin 16) (frame : List Byte) (stamp : Nat) (u : UdpHead), udpHead frame = some u → s.chkFrame stamp = some f →
      let ks := s.copySensors port.val u.srcIp u.dstPort
      let payload := sub frame (u.at' + 8) (u.len - 8)
      let decoded (k : Nat) := (s.chkTmpl k).packet false (s.chkAngle k) payload stamp
      ((s.sd.frame f).closed = false → now < s.closeAt f → Completes (.mirrorCopy port frame stamp [] now) s fun t =>
        (∀ k ∈ ks, decoded k ≠ none →
          ((t.sd.frame f).sensor k).map (·.copies) = some ((((s.sd.frame f).sensor k).map (·.copies)).getD 0 + 1))
        ∧ ((∃ k ∈ ks, decoded k = none) → (t.sd.frame f).unchecked = true ∨ (s.sd.frame f).issued = true)
        ∧ (∀ k pts, ks = [k] → decoded k = some pts → ∀ i j, i < 512 → j < 512 →
            let n := (pts.filterMap (chkPoint (s.bus.xform (commAt k)))).countP (fun p => decide (cellOf p.1 p.2.1 = some (i, j)))
            let was := ((alook (s.sd.frame f).cells (cellKey i j)).getD {}).any
            ((alook (t.sd.frame f).cells (cellKey i j)).getD {}).any = (if n = 0 then was else Nat.min 255 (was + n)))
        ∧ OtherFrames s t f ∧ SameMem s t)
      ∧ (ks ≠ [] → (s.sd.frame f).closed = true ∨ s.closeAt f ≤ now → s.bus.wf = true →
          Completes (.mirrorCopy port frame stamp [] now) s fun t =>
            (t.sd.frame f).unchecked = ((s.sd.frame f).unchecked || !(s.sd.frame f).issued) ∧ Counted s t (sdB + 0x118)
            ∧ OtherFrames s t f ∧ SameMem s t ∧ SameRegsBut s t [sdB + 0x118]))
    ∧ ((s.sd.frame f).closed = false → s.closeAt f ≤ now → Completes (.gridClose f now) s fun t =>
        (t.sd.frame f).closed = true ∧ (t.sd.frame f).cells = (s.sd.frame f).cells
        ∧ (s.sd.state ≠ .run → (t.sd.frame f).unchecked = (s.sd.frame f).unchecked) ∧ OtherFrames s t f ∧ t.bus = s.bus)
    ∧ (now < s.closeAt f → Completes (.gridClose f now) s fun t => t = s)
    ∧ (∀ net, (s.sd.frame f).closed = true → (s.sd.frame f).ready = false → Completes (.checkerNetworkDone f net) s fun t =>
        (t.sd.frame f).ready = true
        ∧ (∀ q, q ∈ (t.sd.frame f).occ ↔ ∃ x ∈ (s.sd.frame f).cells, x.1 = q ∧ ∃ n ∈ x.2.counts,
            s.safeNat 0x702002 ≤ n.2
            ∨ (s.safeNat 0x702003 ≠ 0 ∧ s.safeNat 0x702003 ≤ ((alook net q).map (·.toNat)).getD 0 ∧ 1 ≤ n.2))
        ∧ OtherFrames s t f ∧ OnlySd s t)
    ∧ (s.isWorker = false →
        (∀ r, (s.sd.frame f).issued = false → (s.sd.frame f).ended = false →
          (boxCrcOk r = true → Completes (.boxRecord f r) s fun t =>
            (t.sd.frame f).boxes = (s.sd.frame f).boxes ++ [r] ∧ OtherFrames s t f ∧ OnlySd s t)
          ∧ (boxCrcOk r = false → s.bus.wf = true → Completes (.boxRecord f r) s fun t =>
            Counted s t (sdB + 0x114) ∧ OnlyRegs s t [sdB + 0x114]))
        ∧ ((s.sd.frame f).issued = false → now < s.chkDeadline f → Completes (.endMark f now) s fun t =>
            (t.sd.frame f).ended = true ∧ OtherFrames s t f ∧ OnlySd (s.at now) t)
        ∧ ((s.sd.frame f).issued = true ∨ s.chkDeadline f ≤ now → Completes (.endMark f now) s fun t =>
            t = { s.at now with sd := { s.sd with lateMarks := s.sd.lateMarks + 1 } }))

/-- R337, R338, R340, R346, R364: a single device issues one verdict for a frame whose grid is ready and whose end mark has come, and at the
deadline without. It is VALID exactly in RUN with no safe state latched, no fault of the frame, no disagreement, no frozen camera, no
timing violation and no fault of the verdict path; never at the deadline. The verdict leaves once, with the frame's deadline, COVER_CELLS
and COVER_MISSED; the frame is done. A VALID verdict whose history does not trip energises both outputs. In RUN the verdict that
completes KM_K disagreements in KM_M enters the safe state with cause 1, and otherwise the one that completes INVALID_MAX invalid ones with
cause 2. (No injection sweep is running, during which no verdict leaves: R356.) -/
def Obligations.VerdictsAreIssued : Prop :=
  ∀ (s : State) (f now : Nat) (late : Bool), s.sdUp → s.bus.wf = true → s.bus.topo.size ≤ 1 →
    let c := s.sd.frame f
    let x := s.test c
    let good := s.sd.state = .run ∧ s.sd.latched = false ∧ c.unfit = none ∧ late = false ∧ x.disagree = false ∧ s.frozenCam c = false
      ∧ c.timing = false ∧ s.sd.lateTiming = false ∧ s.sd.sramPending = none ∧ Config.canaryFault c.frame = false
      ∧ canaryOk (s.safeNat 0x702001) = true
    let trips := s.sd.state = .run ∧ s.safeNat 0x701001 ≤ ((s.kmPush x.disagree).filter id).length
    s.inSweep = false →
    (∀ y, c.unfit = some y → y < 256) →
    (if late = true then s.owesVerdict f = true ∧ s.chkDeadline f ≤ now
      else c.ready = true ∧ c.ended = true ∧ c.issued = false ∧ now < s.chkDeadline f) →
    Completes (if late then .deadlineExpiry f now else .verdictIssue f now) s fun t =>
      t.sd.lastFrame = f ∧ (t.sd.lastValid = true ↔ good) ∧ t.sd.verdicts = s.sd.verdicts + 1 ∧ (t.sd.frame f).issued = true
      ∧ t.sd.lastCells = BitVec.ofNat 32 x.cells ∧ t.sd.lastMissed = BitVec.ofNat 32 x.missed
      ∧ (∃ v, .verdict v ∈ t.bus.out ∧ v.frame = f ∧ v.deadline = s.chkDeadline f ∧ v.valid = t.sd.lastValid ∧ v.reason = t.sd.lastReason)
      ∧ (good → ¬trips → t.sd.safeA = true ∧ t.sd.safeB = true ∧ t.sd.state = .run ∧ t.sd.lastReason = 0)
      ∧ (¬trips → (s.sd.state = .run → good ∨ s.sd.invalidRun + 1 < s.safeNat 0x701004) → s.sd.sramPending = none →
          Config.canaryFault c.frame = false → canaryOk (s.safeNat 0x702001) = true →
          t.sd.state = s.sd.state ∧ t.sd.latched = s.sd.latched ∧ SameMem s t)
      ∧ (trips → s.sd.latched = false → SafeEntered s t 1 f)
      ∧ (s.sd.state = .run → ¬trips → ¬good → s.sd.latched = false → s.safeNat 0x701004 ≤ s.sd.invalidRun + 1 → SafeEntered s t 2 f)

/-- R324, R346 to R349: outputs and messages. A lockstep mismatch takes both outputs low and silences the die. A readback that differs for
more than 20 µs takes them low and enters the safe state with cause 5, counted; a shorter one does nothing. A test pulse that is due
begins, one that is not does nothing, and B's begins only once A's is over where two pulses fit in a period. A cyclic message that is due
goes out identically on both controllers, of type CYCLIC, with the state's code, the COUNTER and the CRC seeded with CONNECTION_ID; the
next has the next COUNTER. -/
def Obligations.SafetyOutputsAndMessages : Prop :=
  ∀ (s : State) (now : Nat),
    Completes .lockstepMismatch s (fun t => t.deEnergised ∧ t.sd.halted = true ∧ OnlySd s t
      ∧ (∀ f, ∀ c ∈ [Instr.verdictIssue f now, .deadlineExpiry f now, .cyclic now], Completes c t (fun u => u = t)))
    ∧ (∀ outB duration, s.sdUp → duration ≠ 0 → duration ≤ 20000 → Completes (.readbackDiscrepancy outB duration) s fun t => t = s)
    ∧ (∀ outB duration, s.trippable → 20000 < duration → Completes (.readbackDiscrepancy outB duration) s fun t =>
        SafeEntered s t 5 s.sd.lastFrame ∧ 40 + b2n outB ∈ t.sd.persists ∧ Counted s t (sdB + 0x124))
    ∧ (∀ outB, s.sdUp → s.sd.persists.Pairwise (· < ·) → Completes (.readbackDiscrepancy outB 0) s fun t =>
        40 + b2n outB ∉ t.sd.persists ∧ (∀ c, c ≠ 40 + b2n outB → (c ∈ t.sd.persists ↔ c ∈ s.sd.persists)) ∧ t = { s with sd := { s.sd with persists := t.sd.persists } })
    ∧ (s.sdUp → s.pulseADue now = true → Completes (.testPulse false now) s fun t =>
        t = { s.at now with sd := { s.sd with pulseA := some now } })
    ∧ (s.sdUp → s.pulseADue now = false → Completes (.testPulse false now) s fun t => t = s)
    ∧ (s.sdUp → s.pulseBDue now = true → Completes (.testPulse true now) s fun t =>
        t = { s.at now with sd := { s.sd with pulseB := some now } } ∧ (2 * s.tpWidth ≤ s.tpPeriod → s.pulseOver s.sd.pulseA now = true))
    ∧ (s.sdUp → s.pulseBDue now = false → Completes (.testPulse true now) s fun t => t = s)
    ∧ (s.sdUp → s.bus.wf = true → s.cyclicOn = true → (∀ p, s.sd.lastCyclic = some p → p + s.safeNat 0x704003 * 1000000 ≤ now + 1000000) →
        Completes (.cyclic now) s fun t => ∃ m,
          t.bus.out = .can 1 (s.safeNat 0x704001) m :: .can 0 (s.safeNat 0x704001) m :: s.bus.out
          ∧ m.length = 24 ∧ fld m 0 1 = 1 ∧ fld m 1 1 = s.sd.state.code ∧ fld m 4 2 = s.sd.counter % 65536
          ∧ fld m 8 4 = s.sd.lastFrame % 2 ^ 32 ∧ fld m 0x14 4 = crc32c (leBytes 4 (s.safeNat 0x704002) ++ m.take 20)
          ∧ t.sd.counter = (s.sd.counter + 1) % 65536 ∧ t.sd.lastCyclic = some now ∧ Counted s t (sdB + 0x128) ∧ SameMem s t
          ∧ SameRegsBut s t [sdB + 0x128])

/-- R354 to R357, R364, R372, R451: the injection sweep. Its rows are logged in order with whether each responded, those that did stand in
the test latch, and no verdict, batch or cyclic message leaves meanwhile. One that an ARM waits for and of which every row responds enters
ARMED with the schedule latched from the frame sequencer; one with a row that does not, or that overruns 150 ms, enters the safe state with
cause 6 and its rows in MECH_CAUSE; either ends the ARM. At start-up a passing sweep leads to CONFIG, or to SAFE where the flash record is
latched; a failing one records its rows in MECH_CAUSE even where another cause is latched; a real trip has failed it. An ARM that waits for
open frames is refused 200 ms after it, counted and logged, and the state stays. -/
def Obligations.SweepsDecideArming : Prop :=
  ∀ (s : State) (now : Nat), s.sdUp → s.bus.wf = true → s.bus.late = [] →
    let passes := ∀ r ∈ s.sweepRows [], r.2 = true
    (∀ src, s.sd.state = .config → s.sd.arming = some src → s.plat.bootStep ≠ 9 → s.sd.sweeping = true ∨ s.fseq.openFrames = [] →
      (passes → Completes (.injectionSweep [] now) s fun t =>
        t.sd.injLog = (List.range 11).map (fun r => (r, true)) ∧ t.sd.testLatch = List.range 11 ∧ t.sd.state = .armed ∧ t.sd.arming = none ∧ t.deEnergised ∧ t.sd.schedule = some (s.bus.reg64 (fseqB + 0x10), s.bus.tf)
        ∧ t.fseq.rollback = decide (s.safeNat 0x707001 ≠ 0) ∧ t.mgmt.pending = [] ∧ (s.mgmt.bistRunning = [] → SameMem s t))
      ∧ (∀ rows : List (Fin 11), rows ≠ [] → s.sd.latched = false → Completes (.injectionSweep rows now) s fun t =>
          SafeEntered s t 6 s.sd.lastFrame ∧ t.sd.arming = none ∧ t.sd.mech.toNat / 2 ^ 24 = 1 ∧ t.sd.injLog = s.sweepRows rows
          ∧ ∀ r : Fin 12, t.sd.mech.getLsbD r.val = (s.sweepRows rows).any (fun x => decide (x.1 = r.val) && !x.2))
      ∧ (∀ elapsed, 150000000 < elapsed → s.sd.latched = false → Completes (.sweepOverrun elapsed) s fun t =>
          SafeEntered s t 6 s.sd.lastFrame ∧ t.sd.arming = none ∧ t.sd.mech = 0x01000800))
    ∧ (∀ elapsed, elapsed ≤ 150000000 → Completes (.sweepOverrun elapsed) s fun t => t = s)
    ∧ (s.sd.state ≠ .off → s.plat.bootStep = 9 → (s.mgmt.winner = none ∨ s.mgmt.applied = true) →
        (passes → s.sd.sweepTrip = false → s.sd.state = .selftest → Completes (.injectionSweep [] now) s fun t =>
          t.sd.state = (if s.sd.latched then .safe else .config) ∧ t.sd.latched = s.sd.latched ∧ t.plat.bootStep = 10 ∧ t.deEnergised)
        ∧ (passes → s.sd.sweepTrip = true → Completes (.injectionSweep [] now) s fun t =>
          t.sd.state = s.sd.state ∧ t.sd.latched = s.sd.latched ∧ t.plat.bootStep = 10)
        ∧ (∀ rows : List (Fin 11), rows ≠ [] → Completes (.injectionSweep rows now) s fun t =>
          t.sd.state = .safe ∧ t.sd.latched = true ∧ t.plat.bootStep = 10 ∧ (s.sd.latched = true → t.sd.cause = s.sd.cause)
          ∧ (s.sd.latched = false → t.sd.cause = 6)
          ∧ ∀ r : Fin 12, t.sd.mech.getLsbD r.val = (s.sweepRows rows).any (fun x => decide (x.1 = r.val) && !x.2)))
    ∧ (s.inSweep = true → ∀ f, ∀ c ∈ [Instr.verdictIssue f now, .deadlineExpiry f now, .cyclic now, .systemVerdict f now, .batchCommit f now,
        .ringCopy 0 f, .ringCopy 1 f],
          Completes c s fun t => t.bus.out = s.bus.out ∧ SameMem s t ∧ t.bus.host0 = s.bus.host0 ∧ t.bus.host1 = s.bus.host1)
    ∧ (∀ src, s.sd.arming = some src → s.sd.sweeping = false → s.fseq.openFrames ≠ [] →
        (s.sd.armAt + 200000000 ≤ now → Completes (.armFrameWaitTimeout now) s fun t =>
          t.sd.arming = none ∧ t.sd.state = s.sd.state ∧ t.mgmt.cmdRefused = Nat.min (s.mgmt.cmdRefused + 1) 0xFFFFFFFF
          ∧ t.mgmt.log.head?.map (fun r => (r.index, r.sub, r.code)) = some (0x2000, 1, 0x08000020) ∧ SameMem s t)
        ∧ (now < s.sd.armAt + 200000000 → Completes (.armFrameWaitTimeout now) s fun t => t = s))

/-- R359, R361, R362: the timing monitors. Of a watched frame, the first START is the start and a second is a violation; END ends the task,
a violation without START, before EXEC_MIN unless it is a zero shape, or from EXEC_MAX on, and none in between; one RESTART sets the start
anew, a second is a violation. No END by EXEC_MAX, and no START by START_LATEST, are each found once. An ABANDON disarms the frame's
monitors, and what is not watched finds nothing. -/
def Obligations.TimingMonitorsFindViolations : Prop :=
  ∀ (s : State) (n : Fin 512) (f : BitVec 16) (now : Nat), s.sdUp →
    let g := s.frame16 f.toNat now
    let m := s.sd.mon n.val g
    let e := s.monitor n.val
    (s.watches n.val g = true →
      (m.start = none → Completes (.tokenStart n f now) s fun t =>
        (t.sd.mon n.val g).start = some now ∧ OtherFrames s t g ∧ t.sd.frame g = s.sd.frame g ∧ t.mgmt = s.mgmt ∧ t.bus = s.bus)
      ∧ (∀ t0, m.start = some t0 → Completes (.tokenStart n f now) s fun t =>
          Violated s t g n.val ∧ (t.sd.mon n.val g).start = some t0 ∧ t.bus = s.bus)
      ∧ (∀ zero, m.start = none → Completes (.tokenEnd n f zero now) s fun t => Violated s t g n.val ∧ t.bus = s.bus)
      ∧ (∀ zero t0, m.start = some t0 → Completes (.tokenEnd n f zero now) s fun t =>
          (t.sd.mon n.val g).ended = true ∧ t.bus = s.bus
          ∧ ((now - t0 < e.min ∧ zero = false ∨ e.max ≤ now - t0 ∧ m.longSeen = false) → Violated s t g n.val)
          ∧ ((e.min ≤ now - t0 ∨ zero = true) → now - t0 < e.max → t.mgmt = s.mgmt ∧ t.sd.frames = s.sd.frames))
      ∧ (m.restarted = false → Completes (.tokenRestart n f now) s fun t =>
          (t.sd.mon n.val g).start = some now ∧ (t.sd.mon n.val g).restarted = true ∧ t.mgmt = s.mgmt ∧ t.bus = s.bus)
      ∧ (m.restarted = true → Completes (.tokenRestart n f now) s fun t => Violated s t g n.val ∧ t.bus = s.bus)
      ∧ (∀ t0, m.start = some t0 → m.ended = false → m.longSeen = false → t0 + e.max ≤ now → Completes (.execMaxExpiry n f now) s fun t =>
          Violated s t g n.val ∧ (t.sd.mon n.val g).longSeen = true ∧ t.bus = s.bus)
      ∧ (∀ d, e.latest = some d → m.lateSeen = false → (s.chkTref g : Int) + d ≤ now →
          (∀ t0, m.start = some t0 → (s.chkTref g : Int) + d ≤ t0) → Completes (.startLatestExpiry n f now) s fun t =>
          Violated s t g n.val ∧ (t.sd.mon n.val g).lateSeen = true ∧ t.bus = s.bus))
    ∧ (m.ended = true ∨ m.longSeen = true ∨ (∀ t0, m.start = some t0 → now < t0 + e.max) → Completes (.execMaxExpiry n f now) s fun t => t = s)
    ∧ (m.lateSeen = true ∨ (∀ d, e.latest = some d → (now : Int) < s.chkTref g + d) → Completes (.startLatestExpiry n f now) s fun t => t = s)
    ∧ (s.watches n.val g = false → ∀ c ∈ [Instr.tokenStart n f now, .tokenEnd n f false now, .tokenRestart n f now, .execMaxExpiry n f now,
        .startLatestExpiry n f now], Completes c s fun t => t = s)
    ∧ Completes (.tokenAbandon f) s (fun t => OnlySd s t ∧ ∀ k, t.watches k (s.frame16 f.toNat s.now) = false)

/-- R365, R369, R370, R376: the die's other detections. A frame token that agrees with the schedule touches nothing but the die's frame
records; one that does not enters the safe state with SCHEDULE and the frame's low 24 bits. A passing BIST token dates its station's
pass; a failing one, and a station whose last pass is 32 (DTI + T_f) past, leave cause 3 for the next frame boundary. A SAFE set whose
CRC does not match enters the safe state with SAFE_PARAM, an SRAM error found by polling with SD_MEMORY and the bank; one found in a
verdict waits for that verdict. -/
def Obligations.JuneshaDetectsScheduleStationAndMemoryFaults : Prop :=
  ∀ (s : State) (f tref now : Nat) (n : Fin 32) (bank : BitVec 24), s.sdUp → s.complete →
    (s.sd.schedule = none ∨ tref = s.chkTref f → Completes (.frameToken f tref) s fun t =>
      t = { s with sd := { s.sd with frames := t.sd.frames } } ∧ ∀ g, (s.sd.frame g).issued = false → ((g : Int) - f).natAbs < 16 →
        t.sd.frame g = s.sd.frame g)
    ∧ (s.trippable → s.sd.schedule ≠ none → tref ≠ s.chkTref f → Completes (.frameToken f tref) s fun t =>
        SafeEntered s t 6 s.sd.lastFrame ∧ t.sd.mech.toNat = 0x04000000 + f % 2 ^ 24)
    ∧ Completes (.bistToken n .pass now) s (fun t => t.sd.stationPass[n.val]? = some now
        ∧ (∀ i, i ≠ n.val → t.sd.stationPass[i]? = s.sd.stationPass[i]?) ∧ OnlySd (s.at now) t)
    ∧ Completes (.bistToken n .fail now) s (fun t => OnlySd (s.at now) t ∧ ∃ c, t.sd.pendingCause = some c ∧ c ≤ 3)
    ∧ (∀ k, k = BistTok.start ∨ k = .complete → Completes (.bistToken n k now) s fun t => t = s.at now)
    ∧ (s.sd.stationPass.getD n.val 0 + 32 * (s.bus.dtiNs + s.bus.tf) < now → Completes (.stationTestOverdue n now) s fun t =>
        OnlySd (s.at now) t ∧ ∃ c, t.sd.pendingCause = some c ∧ c ≤ 3)
    ∧ (now ≤ s.sd.stationPass.getD n.val 0 + 32 * (s.bus.dtiNs + s.bus.tf) → Completes (.stationTestOverdue n now) s fun t => t = s)
    ∧ ((∀ c, s.sd.safeCrc = some c → c.toNat = safeCrcOf s.mgmt.safe) → Completes .safeParamCheck s fun t => t = s)
    ∧ (∀ c, s.trippable → s.sd.safeCrc = some c → c.toNat ≠ safeCrcOf s.mgmt.safe → Completes .safeParamCheck s fun t =>
        SafeEntered s t 6 s.sd.lastFrame ∧ t.sd.mech = 0x06000000)
    ∧ (s.trippable → Completes (.sdSramError bank true) s fun t =>
        SafeEntered s t 6 s.sd.lastFrame ∧ t.sd.mech.toNat = 0x05000000 + bank.toNat)
    ∧ Completes (.sdSramError bank false) s (fun t => t = { s with sd := { s.sd with sramPending := some bank } })

/-- R383 to R386, R336, R339, R345, R363, R365, R395, R422: the state commands. Each is accepted in its state from a source that CMD_PATHS
admits while no ARM runs, and goes where R383 sends it: COMMISSION and END_COMMISSION (which clears TRAIN_EN and undoes a changed table);
ARM begins its sweep, at once when no frame is open; DISARM; START and STOP, which a manager sends to its system instead; SAFE_STOP from
every source, with cause 9; RECOVER, with a RECOVERY message on both controllers. ARM and RECOVER are refused with 0x08000020 while a
condition is unmet. Any refusal is counted and logged with its code and has no effect. -/
def Obligations.StateCommandsGoWhereTheTableSends : Prop :=
  ∀ (s : State) (src : Source) (now : Nat), s.sdUp → s.bus.wf = true → s.bus.late = [] →
    let free := s.pathOk src = true ∧ s.sd.arming = none
    let logged (t : State) (c : Nat) : Prop := t.mgmt.log.head?.map (fun r => (r.index, r.sub, r.source, r.code)) = some (0x2000, 1, Machine.Source.code src, c)
    (free → s.sd.state = .config → Completes (.commission src) s fun t => t.sd.state = .commission ∧ t.mgmt.pending = [] ∧ logged t 1)
    ∧ (free → s.sd.state = .commission → Completes (.endCommission src) s fun t =>
        t.sd.state = .config ∧ logged t 2 ∧ (∀ g, g < 8 → t.bus.flag (gmeB g) 1 = false)
        ∧ (s.calib.changed = true → ∀ e i, e < 32 → i < 7 → t.bus.reg (activeAt e + 4 * i) = s.bus.reg (commAt e + 4 * i)))
    ∧ (free → s.sd.state = .config → s.armOk = true → Completes (.arm src now) s fun t =>
        t.sd = { s.sd with testLatch := [], arming := some src, armAt := (s.at now).now, sweeping := decide (s.fseq.openFrames = []) } ∧ t.bus = s.bus)
    ∧ (s.sd.state = .config → (s.mgmt.pending ≠ [] ∨ s.safeNat 0x702001 < s.marginFloor ∨ s.safeNat 0x704002 = 0
          ∨ s.safeNat 0x701003 * 1000000 < (s.safeNat 0x701001 - 1) * s.bus.tf + s.deadlineNs + 1000000 ∨ s.sd.bookValid = false
          ∨ s.safeNat 0x740002 ≠ s.sd.bookCrc.toNat ∨ s.bus.tf < s.deadlineNs) → Completes (.arm src now) s fun t =>
        t.sd = s.sd ∧ t.bus = s.bus ∧ logged t 0x08000020)
    ∧ (free → s.sd.state = .armed → Completes (.disarm src) s fun t =>
        t.sd.state = .config ∧ t.deEnergised ∧ t.sd.schedule = none ∧ logged t 4
        ∧ ∀ k, k < 2 → s.bus.field (kydB k + 4) 1 0 = 3 → t.bus.field (kydB k + 4) 1 0 = 1)
    ∧ (free → s.isWorker = false → s.sd.state = .armed → s.bus.flag (fseqB + 4) 0 = true →
        (s.bus.field (timeB 0 + 4) 1 0 = 2 ∨ s.bus.field (timeB 0 + 4) 1 0 = 0 ∧ 16 ≤ s.bus.field (timeB 0 + 0x18) 4 0) →
        (s.bus.topo.size ≤ 1 → s.outputsSound → Completes (.start src) s fun t =>
          t.sd.state = .run ∧ t.deEnergised ∧ t.sd.history = [] ∧ t.sd.invalidRun = 0 ∧ t.sd.runFirst.isSome = true
          ∧ t.sd.stretch = s.sd.stretch + 1 ∧ logged t 5)
        ∧ (1 < s.bus.topo.size → s.systemOk = true → Completes (.start src) s fun t =>
          t.sd = s.sd ∧ t.kydor.runAt = some (s.bus.firstFrame (s.now + 2000000), true) ∧ t.bus.out = .kydTok .start :: s.bus.out))
    ∧ (free → s.isWorker = false → s.sd.state = .run →
        (s.bus.topo.size ≤ 1 → Completes (.stop src) s fun t => t.sd.state = .armed ∧ t.deEnergised ∧ logged t 6)
        ∧ (1 < s.bus.topo.size → Completes (.stop src) s fun t =>
          t.sd = s.sd ∧ t.kydor.runAt = some (s.bus.firstFrame (s.now + 2000000), false) ∧ t.bus.out = .kydTok .stop :: s.bus.out))
    ∧ (s.canTrip false = true → s.sd.state ≠ .safe → s.sd.latched = false → Completes (.safeStop src) s fun t =>
        SafeEntered s t 9 s.sd.lastFrame ∧ t.sd.arming = none ∧ logged t 7)
    ∧ (s.sd.state = .safe → Completes (.safeStop src) s fun t => t = { s with mgmt := { s.mgmt with log := t.mgmt.log } } ∧ logged t 7)
    ∧ (free → s.sd.state = .safe → s.sd.persists = [] → (s.mgmt.winner = none ∨ s.mgmt.applied = true) → Completes (.recover src) s fun t =>
        t.sd.state = .config ∧ t.sd.latched = false ∧ t.sd.flashCause = 0 ∧ t.sd.history = [] ∧ t.deEnergised ∧ t.sd.causeLog = s.sd.causeLog
        ∧ ∃ m, .can 0 (s.safeNat 0x704001) m ∈ t.bus.out ∧ .can 1 (s.safeNat 0x704001) m ∈ t.bus.out ∧ fld m 0 1 = 3)
    ∧ (s.sd.state = .safe → s.sd.persists ≠ [] → Completes (.recover src) s fun t => t.sd = s.sd ∧ logged t 0x08000020)
    ∧ (∀ x ∈ [(1, Instr.commission src), (2, .endCommission src), (3, .arm src now), (4, .disarm src), (5, .start src), (6, .stop src),
        (7, .safeStop src), (8, .recover src), (9, .save src true), (10, .reset src), (11, .calCommission src), (12, .modelSwitch src)],
        s.commandCode x.1 src ≠ 0 → Completes x.2 s fun t =>
          t.sd = s.sd ∧ t.mgmt.cmdRefused = Nat.min (s.mgmt.cmdRefused + 1) 0xFFFFFFFF ∧ logged t (s.commandCode x.1 src) ∧ SameMem s t)

/-- R306, R315, R393, R401 to R406, R450: what the other commands and the writes of images keep. SAVE writes the copy that is not current,
with every entry in force and the active calibration, and makes it current only when it reads back valid. RESET, from a command or out of
a lockstep hold, leaves BOOT with the main dies held and the outputs low; the latch record, the confirmed SAFE set, the copies and the
commissioned table survive, every other register is at its reset value and device memory reads 0. CAL_COMMISSION copies the active table
into the commissioned one; MODEL_SWITCH takes the other bank. CONFIRM with the pending CRC puts the set in force, any refused one
nothing; 60 s after its last write the pending set is discarded, not before. A verified image goes to the slot that does not run;
the fused minimum only rises. -/
def Obligations.CopiesImagesAndResetKeepWhatTheyMust : Prop :=
  ∀ (s : State) (src : Source) (now : Nat), s.sdUp → s.bus.wf = true → s.bus.late = [] →
    let free := s.pathOk src = true ∧ s.sd.arming = none
    let other := if s.mgmt.cfgSource = 0 then 1 else 0
    (free → (s.sd.state = .config ∨ s.sd.state = .commission) → s.bus.calBusy = false →
      (s.copyFits = true → Completes (.save src true) s fun t =>
        let c := t.mgmt.copy other
        c = .of (s.mgmt.cfgSeq + 1) (BitVec.ofNat 32 (s.bus.reg (cleB + 0x10))) s.bus.activeWords s.copyRecords
        ∧ c.valid = true ∧ c.seq = s.mgmt.cfgSeq + 1 ∧ c.records = s.copyRecords ∧ c.cal = s.bus.activeWords
        ∧ c.calSeq = BitVec.ofNat 32 (s.bus.reg (cleB + 0x10))
        ∧ t.mgmt.copy (1 - other) = s.mgmt.copy (1 - other) ∧ t.mgmt.cfgSource = other ∧ t.mgmt.cfgSeq = s.mgmt.cfgSeq + 1
        ∧ t.sd = s.sd ∧ t.bus = s.bus)
      ∧ Completes (.save src false) s fun t =>
        (t.mgmt.copy other).valid = false ∧ t.mgmt.copy (1 - other) = s.mgmt.copy (1 - other) ∧ t.mgmt.cfgSource = s.mgmt.cfgSource
        ∧ t.mgmt.cfgSeq = s.mgmt.cfgSeq ∧ t.mgmt.log.head?.map (·.code) = some 0x06060000 ∧ t.sd = s.sd ∧ t.bus = s.bus)
    ∧ (free → (s.sd.state = .config ∨ s.sd.state = .commission ∨ s.sd.state = .armed ∨ s.sd.state = .safe) →
        Completes (.reset src) s (BootKept s))
    ∧ (Completes (.reset src) { s with sd := { s.sd with halted := true } } (BootKept s))
    ∧ (free → s.sd.state = .commission → Completes (.calCommission src) s fun t =>
        (∀ e i, e < 32 → i < 7 → t.bus.reg (commAt e + 4 * i) = s.bus.reg (activeAt e + 4 * i)) ∧ t.calib.changed = false ∧ t.sd = s.sd
        ∧ SameMem s t ∧ SameRegsBut s t ((List.range 256).map (fun i => cleB + 0x3000 + 4 * i)))
    ∧ (free → s.sd.state = .config →
        (let m := if s.mgmt.modelBank = 0 then s.mgmt.model1 else s.mgmt.model0
         4 < m.length ∧ crc32c (m.take (m.length - 4)) = leNat (m.drop (m.length - 4))) → Completes (.modelSwitch src) s fun t =>
        t.mgmt.modelBank = 1 - s.mgmt.modelBank ∧ t.mgmt.model0 = s.mgmt.model0 ∧ t.mgmt.model1 = s.mgmt.model1 ∧ t.sd = s.sd ∧ t.bus = s.bus)
    ∧ (∀ crc : Word, s.sd.state = .config → s.pathOk src = true → crc.toNat = safeCrcOf s.mgmt.merged →
        crossCheck s.bus.variant s.mgmt.merged = 0 → Completes (.confirm src crc) s fun t =>
          t.mgmt.safe = s.mgmt.merged ∧ t.mgmt.pending = [] ∧ t.bus.topo = topoOf s.mgmt.merged ∧ t.sd.state = s.sd.state
          ∧ t.sd.safeCrc = some crc ∧ t.mgmt.safeConfirms = Nat.min (s.mgmt.safeConfirms + 1) 0xFFFFFFFF)
    ∧ (∀ crc : Word, (s.sd.state ≠ .config ∨ s.pathOk src = false ∨ crc.toNat ≠ safeCrcOf s.mgmt.merged
          ∨ crossCheck s.bus.variant s.mgmt.merged ≠ 0) → Completes (.confirm src crc) s fun t =>
        t.mgmt.safe = s.mgmt.safe ∧ t.mgmt.pending = s.mgmt.pending ∧ t.sd = s.sd ∧ t.bus = s.bus
        ∧ t.mgmt.sdoAborts = Nat.min (s.mgmt.sdoAborts + 1) 0xFFFFFFFF)
    ∧ (Completes (.pendingDiscard now) s fun t =>
        t.mgmt.pending = (if s.mgmt.pendingAt + 60000000000 ≤ now then [] else s.mgmt.pending) ∧ t.mgmt.safe = s.mgmt.safe ∧ t.sd = s.sd
        ∧ t.bus = s.bus)
    ∧ (∀ img, s.sd.state = .config → s.plat.mainHeld = false → Completes (.aedImage src img) s fun t =>
          (if imageAccepted false s.mgmt.secMin img = false then t.mgmt.slot0 = s.mgmt.slot0 ∧ t.mgmt.slot1 = s.mgmt.slot1
            else if s.mgmt.running = 0 then t.mgmt.slot1.bytes = img ∧ t.mgmt.slot0 = s.mgmt.slot0
            else t.mgmt.slot0.bytes = img ∧ t.mgmt.slot1 = s.mgmt.slot1)
          ∧ t.mgmt.running = s.mgmt.running ∧ t.mgmt.secMin = s.mgmt.secMin ∧ t.sd = s.sd ∧ t.bus = s.bus)
    ∧ (∀ img, s.sd.state = .config → Completes (.sdImage src img) s fun t =>
        (if imageAccepted true s.mgmt.secMin img = false then t.mgmt.sdSlot1 = s.mgmt.sdSlot1 else t.mgmt.sdSlot1.bytes = img)
        ∧ t.mgmt.slot0 = s.mgmt.slot0 ∧ t.mgmt.slot1 = s.mgmt.slot1 ∧ t.sd = s.sd ∧ t.bus = s.bus)
    ∧ (∀ img sd, s.sd.state ≠ .config ∨ imageAccepted sd s.mgmt.secMin img = false →
        Completes (if sd then .sdImage src img else .aedImage src img) s fun t =>
          t.mgmt.slot0 = s.mgmt.slot0 ∧ t.mgmt.slot1 = s.mgmt.slot1 ∧ t.mgmt.sdSlot1 = s.mgmt.sdSlot1 ∧ t.sd = s.sd ∧ t.bus = s.bus)
    ∧ (s.sd.state = .config → s.plat.mainHeld = false → Completes (.secVersionRaise src) s fun t =>
        t.mgmt.secMin = Nat.max s.mgmt.secMin (imgSec s.mgmt.runningImage) ∧ t.sd = s.sd ∧ t.bus = s.bus)

/-- R389, R390, R393, R394, R396: SDO. An expedited download of a SAFE entry in CONFIG within its limits goes to the pending set, and the
set in force stays; a refused write changes no entry and is answered with its abort code. An upload of up to four bytes is answered at
once with the value, a longer one begins a segmented transfer with its length; a refused read with its abort code. A segment continues
the transfer when its toggle alternates and ends it with 0x05030000 when not; one that comes later than 1,000 ms finds its transfer aborted.
A client's abort ends the transfer; so does 1,000 ms without
a segment, with 0x05040000, and nothing sooner. Every request served is logged. -/
def Obligations.SdoServesTheDictionary : Prop :=
  ∀ (s : State) (c : Fin 2) (now idx sb : Nat), s.sdUp → s.bus.late = [] → s.mgmt.armReply = none → idx < 2 ^ 16 → sb < 2 ^ 8 →
    let k := odKey idx sb
    let said (t : State) (d : List Byte) : Prop := t.bus.out = .can c.val (0x580 + s.odNat 0x110001) d :: s.bus.out
    let logged (t : State) (code : Nat) : Prop := t.mgmt.log.head?.map (fun r => (r.index, r.sub, r.source, r.code)) = some (idx, sb, c.val, code)
    let abort (code : Nat) : List Byte := leBytes 1 0x80 ++ leBytes 2 idx ++ leBytes 1 sb ++ leBytes 4 code
    (∀ v : List Byte, 0 < v.length → v.length ≤ 4 → s.mgmt.sdo c = none →
      let req := leBytes 1 (0x23 + 4 * (4 - v.length)) ++ leBytes 2 idx ++ leBytes 1 sb ++ v ++ zeros (4 - v.length)
      (s.sd.state = .config → k ≠ 0x700001 → (safeKind k).isSome = true → (odRow s.bus.variant k).map (·.1) = some .safe →
        (idx = 0x9001 → s.bus.topo.own = 0) → s.safeWrite k v = 0 → Completes (.sdoDownload c req now) s fun t =>
          alook t.mgmt.pending k = some v ∧ (∀ j, j ≠ k → alook t.mgmt.pending j = alook s.mgmt.pending j) ∧ t.mgmt.safe = s.mgmt.safe
          ∧ said t (leBytes 1 0x60 ++ leBytes 2 idx ++ leBytes 1 sb ++ zeros 4) ∧ logged t 0 ∧ t.sd = s.sd)
      ∧ (k ∉ [0x200001, 0x700001, 0x1F5001, 0x1F5002, 0xA00001, 0xA0F001] → ((s.at now).odStore idx sb v now).1 ≠ 0 →
          Completes (.sdoDownload c req now) s fun t =>
            said t (abort ((s.at now).odStore idx sb v now).1) ∧ logged t ((s.at now).odStore idx sb v now).1
            ∧ t.mgmt.pending = s.mgmt.pending ∧ t.mgmt.safe = s.mgmt.safe ∧ t.mgmt.od = s.mgmt.od ∧ t.sd = s.sd ∧ SameMem s t
            ∧ SameRegsBut s t []))
    ∧ (s.mgmt.sdo c = none →
        let req := leBytes 1 0x40 ++ leBytes 2 idx ++ leBytes 1 sb ++ zeros 4
        let r := (s.at now).odRead idx sb
        (r.1 = 0 → 0 < r.2.length → r.2.length ≤ 4 → Completes (.sdoUpload c req now) s fun t =>
          said t (leBytes 1 (0x43 + 4 * (4 - r.2.length)) ++ leBytes 2 idx ++ leBytes 1 sb ++ r.2 ++ zeros (4 - r.2.length)) ∧ logged t 0
          ∧ t.mgmt.od = s.mgmt.od ∧ t.sd = s.sd ∧ SameMem s t)
        ∧ (r.1 = 0 → 4 < r.2.length → Completes (.sdoUpload c req now) s fun t =>
          (t.mgmt.sdo c).map (fun x => (x.down, x.data, x.toggle)) = some (false, r.2, false) ∧ logged t 0 ∧ t.sd = s.sd ∧ SameMem s t)
        ∧ (r.1 ≠ 0 → Completes (.sdoUpload c req now) s fun t => said t (abort r.1) ∧ logged t r.1 ∧ t.sd = s.sd ∧ SameMem s t))
    ∧ (∀ x : SdoXfer, s.mgmt.sdo c = some x →
        (∀ p : List Byte, now ≤ x.last + 1000000000 → x.down = true → p.length = 7 → Completes (.sdoSegment c (leBytes 1 (16 * b2n x.toggle) ++ p) now) s fun t =>
          (t.mgmt.sdo c).map (fun y => (y.index, y.sub, y.data, y.toggle)) = some (x.index, x.sub, x.data ++ p, !x.toggle)
          ∧ said t (leBytes 1 (0x20 + 16 * b2n x.toggle) ++ zeros 7) ∧ t.sd = s.sd ∧ SameMem s t)
        ∧ (now ≤ x.last + 1000000000 → x.down = false → 7 < x.data.length → Completes (.sdoSegment c (leBytes 1 (0x60 + 16 * b2n x.toggle) ++ zeros 7) now) s fun t =>
          (t.mgmt.sdo c).map (fun y => (y.data, y.toggle)) = some (x.data.drop 7, !x.toggle)
          ∧ said t (leBytes 1 (16 * b2n x.toggle) ++ x.data.take 7) ∧ t.sd = s.sd ∧ SameMem s t)
        ∧ (∀ p : List Byte, now ≤ x.last + 1000000000 → p.length = 7 → Completes (.sdoSegment c (leBytes 1 ((if x.down then 0 else 0x60) + 16 * b2n (!x.toggle)) ++ p) now)
            s fun t => t.mgmt.sdo c = none ∧ said t (leBytes 1 0x80 ++ leBytes 2 x.index ++ leBytes 1 x.sub ++ leBytes 4 0x05030000)
          ∧ t.sd = s.sd ∧ SameMem s t)
        ∧ (∀ p : List Byte, s.now ≤ x.last + 1000000000 → p.length = 7 → Completes (.sdoAbort c (leBytes 1 0x80 ++ p)) s fun t =>
          t.mgmt.sdo c = none ∧ t.bus = s.bus ∧ t.sd = s.sd)
        ∧ (∀ p : List Byte, x.last + 1000000000 < now → p.length = 7 →
          Completes (.sdoSegment c (leBytes 1 ((if x.down then 0 else 0x60) + 16 * b2n x.toggle) ++ p) now) s fun t =>
            t.mgmt.sdo c = none ∧ t.sd = s.sd ∧ SameMem s t ∧ t.bus.out.drop 1 =
              .can c.val (0x580 + s.odNat 0x110001) (leBytes 1 0x80 ++ leBytes 2 x.index ++ leBytes 1 x.sub ++ leBytes 4 0x05040000) :: s.bus.out)
        ∧ (x.last + 1000000000 ≤ now → Completes (.sdoTimeout c now) s fun t =>
          t.mgmt.sdo c = none ∧ said t (leBytes 1 0x80 ++ leBytes 2 x.index ++ leBytes 1 x.sub ++ leBytes 4 0x05040000) ∧ t.sd = s.sd
          ∧ SameMem s t)
        ∧ (now < x.last + 1000000000 → Completes (.sdoTimeout c now) s fun t => t = s))

/-- R396 to R398: QMP. A good READ of a served entry, no repetition, is answered by a RESPONSE that echoes TRANS_ID, INDEX and OFFSET, holds
the part of the value asked for and a good CRC, and is kept for its peer; a repeated TRANS_ID gets the kept answer again and nothing is
executed; a message with a bad CRC, to another port than QMP_PORT, or from another than QMP_PEER, is dropped. A WRITE without LAST joins its run; one that leaves a gap
is refused and drops the run. GO in the mailbox while BUSY only sets CFG_ERR, a message with a bad CRC sets CRC_ERR, and a good READ leaves
the answer in MBX_RSP with DONE set and BUSY clear. -/
def Obligations.QmpServesItsPeers : Prop :=
  ∀ (s : State) (peer : UdpFrom) (m : List Byte) (now : Nat), s.up → s.sdUp → s.mgmt.armReply = none →
    let tid := fld m 4 2
    let r := (s.at now).odRead (fld m 6 2) (fld m 8 1)
    let part := (r.2.drop (fld m 12 4)).take (Nat.min 1024 (fld m 10 2))
    let admitted := peer.dst.toNat = s.odNat 0x111002 ∧ (s.odNat 0x111003 = 0 ∨ s.odNat 0x111003 = peer.ip.toNat)
    let fresh (q : Nat) : Prop := ∀ x, alook s.mgmt.qmpLast q = some x → x.1 ≠ tid
    let answers (a : List Byte) : Prop := fld a 0 4 = 0x03014D51 ∧ fld a 4 2 = tid ∧ fld a 6 2 = fld m 6 2 ∧ fld a 12 4 = fld m 12 4
      ∧ fld a 10 2 = part.length ∧ sub a 16 part.length = part ∧ fld a (16 + part.length) 4 = crc32c (a.take (16 + part.length))
    (qmpGood m true = true → admitted → fresh peer.ip.toNat → fld m 3 1 = 1 → r.1 = 0 → Completes (.qmpRead peer m now) s fun t =>
      ∃ a, t.bus.out = .qmp peer.ip peer.port a :: s.bus.out ∧ answers a ∧ alook t.mgmt.qmpLast peer.ip.toNat = some (tid, a) ∧ t.sd = s.sd ∧ SameMem s t
        ∧ SameRegsBut s t [])
    ∧ (qmpGood m true = true → admitted → ∀ a, alook s.mgmt.qmpLast peer.ip.toNat = some (tid, a) →
        ∀ c ∈ [Instr.qmpRead peer m now, .qmpWrite peer m now], Completes c s fun t =>
          t.bus.out = .qmp peer.ip peer.port a :: s.bus.out ∧ t.mgmt.log = s.mgmt.log ∧ t.mgmt.od = s.mgmt.od ∧ t.mgmt.pending = s.mgmt.pending
          ∧ t.sd = s.sd ∧ SameMem s t)
    ∧ (qmpGood m true = false ∨ ¬admitted → ∀ c ∈ [Instr.qmpRead peer m now, .qmpWrite peer m now], Completes c s fun t => t = s)
    ∧ (qmpGood m true = true → admitted → fresh peer.ip.toNat → fld m 3 1 = 2 → fld m 9 1 % 2 = 0 →
        (alook s.mgmt.qmpRuns peer.ip.toNat = none → fld m 12 4 = 0 → Completes (.qmpWrite peer m now) s fun t =>
          alook t.mgmt.qmpRuns peer.ip.toNat = some { index := fld m 6 2, sub := fld m 8 1, data := sub m 16 (fld m 10 2) }
          ∧ t.mgmt.od = s.mgmt.od ∧ t.mgmt.pending = s.mgmt.pending ∧ t.sd = s.sd ∧ SameMem s t)
        ∧ (∀ q, alook s.mgmt.qmpRuns peer.ip.toNat = some q → ¬(q.index = fld m 6 2 ∧ q.sub = fld m 8 1 ∧ fld m 12 4 = q.data.length) →
          Completes (.qmpWrite peer m now) s fun t =>
            alook t.mgmt.qmpRuns peer.ip.toNat = none ∧ (∃ a, t.bus.out = .qmp peer.ip peer.port a :: s.bus.out ∧ fld a 3 1 = 4 ∧ fld a 16 4 = 0x08000020)
            ∧ t.mgmt.od = s.mgmt.od ∧ t.mgmt.pending = s.mgmt.pending ∧ t.sd = s.sd ∧ SameMem s t))
    ∧ (s.bus.flag (pcieB + 0x104) 30 = true → Completes (.mbxGo now) s fun t =>
        t.bus.flag (pcieB + 0x104) 28 = true ∧ OnlyRegs (s.at now) t [pcieB + 0x104])
    ∧ (s.bus.flag (pcieB + 0x104) 30 = false → qmpGood s.bus.mbxRequest false = false → Completes (.mbxGo now) s fun t =>
        t.bus.flag (pcieB + 0x104) 29 = true ∧ OnlyRegs (s.at now) t [pcieB + 0x104])
    ∧ (s.bus.flag (pcieB + 0x104) 30 = false → qmpGood s.bus.mbxRequest false = true → m = s.bus.mbxRequest.take ((qmpLength s.bus.mbxRequest).getD 0) →
        fresh mbxPeer → fld m 3 1 = 1 → Completes (.mbxGo now) s fun t =>
          t.bus.flag (pcieB + 0x104) 31 = true ∧ t.bus.flag (pcieB + 0x104) 30 = false
          ∧ t.bus.reg (pcieB + 0x2000) = (if r.1 = 0 then 0x03014D51 else 0x04014D51) ∧ t.bus.reg (pcieB + 0x2004) % 2 ^ 16 = tid
          ∧ t.sd = s.sd ∧ SameMem s t)

/-- R88, R411, R416 to R418, R420: packets that reach a port which is UP. One for this device is served and answered along the route to its
source, under its tag: a READ with the bytes, a history lookup with status and payload, a write that was performed when ACK asks for it.
A write lands in a fed range only, else memory stays. A SYNC packet performs the operation it holds. A COMPLETION whose tag is awaited
gives the read's bytes, another is discarded; a tag that times out gives a bus error, counted. QMP is served but is no path for commands
and CONFIRM. One for another device is forwarded, or discarded and counted where its next port is not UP. A port that is not UP takes
nothing. -/
def Obligations.KydorPacketsAreServedOrForwarded : Prop :=
  ∀ (s : State) (k : Fin 4) (m : KydPkt) (now : Nat), s.up → s.sdUp → s.mgmt.armReply = none →
    let a := m.addr.toNat
    let answered (t : State) (op : Nat) (pay : List Byte) (bad : Bool) : Prop := ∃ j r,
      t.bus.out.head? = some (.kyd j r) ∧ (s.bus.topo.hop m.src.val).map (·.1) = some j ∧ r.op.toNat = op ∧ r.response = true
      ∧ r.tag = m.tag ∧ r.dst = m.src ∧ r.payload = pay ∧ r.poison = bad
    let plain := [Instr.kydRead k m, .kydWrite k m, .kydSync k m, .kydHsLookup k m, .kydHsWrite k m, .kydCompletion k m, .kydTransit k m]
    (s.portUp k.val = true → m.dst.val = s.bus.topo.own → (s.bus.topo.hop m.src.val).isSome = true → s.bus.reach m.src.val = true →
      (let n := Nat.min 256 (leNat m.payload)
       0 < n → a + n ≤ 0x0A000000 → Completes (.kydRead k m) s fun t =>
        answered t 9 (s.bus.rdN a n) (s.bus.poisoned a n) ∧ SameMem s t ∧ t.sd = s.sd)
      ∧ (a + m.payload.length ≤ 0x0A000000 → m.payload ≠ [] → m.poison = false →
          (m.fed = true → s.bus.inFed a m.payload.length = true → Completes (.kydWrite k m) s fun t =>
            t.bus.rdN a m.payload.length = m.payload ∧ SameMemBut s t a m.payload.length ∧ (m.ack = true → answered t 9 [] false))
          ∧ (m.fed = false ∨ s.bus.inFed a m.payload.length = false → Completes (.kydWrite k m) s fun t =>
            SameMem s t ∧ t.bus.out = s.bus.out))
      ∧ (∀ (n : Fin 16384) (v : BitVec 24), a = syncB n.val + 0xC → m.payload = leBytes 4 v.toNat → s.bus.kind n.val ≠ 1 →
          Completes (.kydSync k m) s fun t =>
            t.bus.count n.val = (s.bus.count n.val + v.toNat) % 2 ^ 32 ∧ (m.ack = true → answered t 9 [] false) ∧ SameMem s t)
      ∧ (let f := fld m.payload 8 4
         let r := s.bus.hsFind f (s.horizonOf f) (histKey m)
         Completes (.kydHsLookup k m) s (fun t =>
            answered t 9 (leBytes 4 r.status ++ r.payload) r.bad ∧ Counted s t (bseB (histBse (histKey m)) + 0x13C) ∧ SameMem s t)
         ∧ Completes (.kydHsWrite k m) s (fun t =>
            answered t 9 [] false ∧ Counted s t (bseB (histBse (histKey m)) + 0x13C)
            ∧ (s.bus.hsReady = false → SameMem s t)))
      ∧ (alook s.kydor.tags m.tag.toNat = none → Completes (.kydCompletion k m) s fun t =>
          Counted s t (kydB k.val + 0x104) ∧ OnlyRegs s t [kydB k.val + 0x104])
      ∧ (∀ j b n, alook s.kydor.tags m.tag.toNat = some (j, .read b n) → Completes (.kydCompletion k m) s fun t =>
          t.bus.out = .memData b m.payload m.poison :: s.bus.out ∧ alook t.kydor.tags m.tag.toNat = none ∧ SameMem s t)
      ∧ (qmpGood m.payload true = true → m.response = false →
          (∀ x, alook s.mgmt.qmpLast (2 ^ 33 + m.src.val) = some x → x.1 ≠ fld m.payload 4 2) →
          (let r := (s.at now).odRead (fld m.payload 6 2) (fld m.payload 8 1)
           fld m.payload 3 1 = 1 → r.1 = 0 → Completes (.kydQmp k m now) s fun t => ∃ y, answered t 8 y false ∧ fld y 3 1 = 3
            ∧ fld y 4 2 = fld m.payload 4 2
            ∧ (∃ n, sub y 16 n = (r.2.drop (fld m.payload 12 4)).take (Nat.min 236 (fld m.payload 10 2)) ∧ fld y 10 2 = n) ∧ t.sd = s.sd)
          ∧ (fld m.payload 3 1 = 2 → (odKey (fld m.payload 6 2) (fld m.payload 8 1) = 0x200001 ∨
                odKey (fld m.payload 6 2) (fld m.payload 8 1) = 0x700001) → Completes (.kydQmp k m now) s fun t =>
              (∃ y, answered t 8 y false ∧ fld y 3 1 = 4 ∧ fld y 16 4 = 0x08000020) ∧ t.sd = s.sd ∧ t.mgmt.safe = s.mgmt.safe))
      ∧ (qmpGood m.payload true = false → Completes (.kydQmp k m now) s fun t =>
          Counted s t (kydB k.val + 0x104) ∧ OnlyRegs s t [kydB k.val + 0x104]))
    ∧ (s.portUp k.val = true → ∀ j x, m.dst.val ≠ s.bus.topo.own → s.bus.topo.hop m.dst.val = some (j, x) → ∀ c ∈ plain,
        (s.bus.reach m.dst.val = true → Completes c s fun t =>
          (∃ r, t.bus.out = .kyd j r :: s.bus.out ∧ r = { m with cls := r.cls }) ∧ Counted s t (kydB k.val + 0x118) ∧ SameMem s t)
        ∧ (s.bus.reach m.dst.val = false → Completes c s fun t => t.bus.out = s.bus.out ∧ Counted s t (kydB j + 0x11C) ∧ SameMem s t))
    ∧ (s.portUp k.val = false → ∀ c ∈ plain ++ [.kydQmp k m now], Completes c s fun t => t = s)
    ∧ (∀ j b n, j < 4 → alook s.kydor.tags m.tag.toNat = some (j, .read b n) → Completes (.respTimeout m.tag) s fun t =>
        t.bus.out = .busError b :: s.bus.out ∧ Counted s t (kydB j + 0x124) ∧ alook t.kydor.tags m.tag.toNat = none ∧ SameMem s t)
    ∧ (alook s.kydor.tags m.tag.toNat = none → Completes (.respTimeout m.tag) s fun t => t = s)

/-- R413, R419, R422, R427 to R429: manager and workers. A worker takes START and STOP from the manager for the first window 2 ms later,
frame releases, the record stream and the system verdict; the manager takes states, reports and local verdicts. A local verdict with
LATCHED takes the manager into the safe state with cause 0x0A, a system verdict with LATCHED the worker. With every local verdict at hand,
or at the deadline, the manager issues the system verdict: VALID exactly when its own reason is 0 and every worker's verdict is there and
VALID; it goes to its SME and to the workers, and COVER_CELLS is the saturated sum. Before that nothing is issued. -/
def Obligations.ManagerAndWorkersAct : Prop :=
  ∀ (s : State) (k : Fin 4) (f now : Nat), s.up → s.sdUp →
    (s.portUp k.val = true →
      (s.isWorker = true →
        (Completes (.kydToken k .start now) s fun t =>
          t.kydor.runAt = some (s.bus.firstFrame (now + 2000000), true) ∧ t.sd = s.sd ∧ SameMem s t)
        ∧ (Completes (.kydToken k .stop now) s fun t =>
          t.kydor.runAt = some (s.bus.firstFrame (now + 2000000), false) ∧ t.sd = s.sd ∧ SameMem s t)
        ∧ (∀ tref, Completes (.kydToken k (.frameToken f tref) now) s fun t => f ∈ t.fseq.released ∧ t.sd = s.sd ∧ SameMem s t)
        ∧ (∀ v : Verdict, s.invalidTrips v.valid = false →
            (Completes (.kydToken k (.systemVerdict v false) now) s fun t =>
              t.sd.lastFrame = v.frame ∧ t.sd.lastValid = v.valid ∧ t.sd.state = s.sd.state ∧ t.sd.latched = s.sd.latched
              ∧ .verdict v ∈ t.bus.out ∧ SameMem s t)
            ∧ (s.trippable → Completes (.kydToken k (.systemVerdict v true) now) s fun t => SafeEntered s t 10 v.frame))
        ∧ (∀ r, boxCrcOk r = true → (s.sd.frame f).issued = false → (s.sd.frame f).ended = false →
            Completes (.kydRecord k f r false) s fun t => (t.sd.frame f).boxes = (s.sd.frame f).boxes ++ [r] ∧ OtherFrames s t f ∧ SameMem s t)
        ∧ (∀ r, (s.sd.frame f).issued = false → s.now < s.chkDeadline f → Completes (.kydRecord k f r true) s fun t =>
            (t.sd.frame f).ended = true ∧ OtherFrames s t f ∧ SameMem s t))
      ∧ (s.isManager = true →
        (∀ n c, Completes (.kydToken k (.state n c) now) s fun t =>
          alook t.kydor.states n.val = some c ∧ (∀ j, j ≠ n.val → alook t.kydor.states j = alook s.kydor.states j) ∧ t.sd = s.sd ∧ SameMem s t)
        ∧ (∀ n b l c, s.kydor.startReady.Pairwise (· < ·) → Completes (.kydToken k (.report n b l c) now) s fun t =>
          t.kydor.startReady.contains n.val = b ∧ alook t.kydor.links n.val = some l.toNat ∧ alook t.kydor.sysCrcs n.val = some c ∧ t.sd = s.sd
          ∧ SameMem s t)
        ∧ (∀ n, Completes (.kydToken k (.retired n f) now) s fun t => (∃ g, alook t.kydor.retired n.val = some g ∧ f ≤ g) ∧ t.sd = s.sd
          ∧ SameMem s t))
      ∧ ((∃ x ∈ s.fseq.openFrames, x.frame = f ∧ x.abandoned = false) → s.fseq.rollback = false →
          Completes (.kydToken k (.abandon f) now) s fun t => ∀ x ∈ t.fseq.openFrames, x.abandoned = true))
    ∧ (s.isWorker = true → Completes (.frameRelease f) s fun t => f ∈ t.fseq.released ∧ t = { s with fseq := { s.fseq with released := t.fseq.released } })
    ∧ (s.isWorker = false → Completes (.frameRelease f) s fun t => t = s)
    ∧ (∀ (d : Fin 32) (v : LocalVerdict), s.isManager = true → 0 < d.val → d.val < s.bus.topo.size →
        (v.latched = false → Completes (.localVerdict d f v) s fun t =>
          alook t.kydor.locals (d.val, f) = some v ∧ t = { s with kydor := { s.kydor with locals := t.kydor.locals } })
        ∧ (v.latched = true → s.trippable → Completes (.localVerdict d f v) s fun t =>
          alook t.kydor.locals (d.val, f) = some v ∧ t.kydor.latchedSystem = true ∧ SafeEntered s t 10 s.sd.lastFrame))
    ∧ (∀ o : LocalVerdict, s.isManager = true → alook s.kydor.own f = some o →
        let got (d : Nat) := alook s.kydor.locals (d, f)
        let all := o :: ((List.range s.bus.topo.size).drop 1).filterMap got
        ((∀ d, 0 < d → d < s.bus.topo.size → (got d).isSome = true) ∨ s.chkDeadline f ≤ now → Completes (.systemVerdict f now) s fun t =>
          t.sd.lastFrame = f ∧ t.sd.verdicts = s.sd.verdicts + 1
          ∧ (t.sd.lastValid = true ↔ o.reason = 0 ∧ ∀ d, 0 < d → d < s.bus.topo.size → (got d).map (·.valid) = some true)
          ∧ t.sd.lastCells.toNat = Nat.min (all.map (·.cells.toNat)).sum (2 ^ 32 - 1)
          ∧ (∃ v l, .verdict v ∈ t.bus.out ∧ .kydTok (.systemVerdict v l) ∈ t.bus.out ∧ v.frame = f ∧ v.valid = t.sd.lastValid
              ∧ l = (s.sd.latched || s.kydor.latchedSystem)))
        ∧ ((∃ d, 0 < d ∧ d < s.bus.topo.size ∧ got d = none) → now < s.chkDeadline f → Completes (.systemVerdict f now) s fun t => t = s))
    ∧ (s.isManager = false → Completes (.systemVerdict f now) s fun t => t = s)

/-- R412, R431, R432, R435: the links. A negative acknowledgement sends the packets that the port still holds again from the one it names.
A link goes DOWN when its lock is lost, when it has been idle too long, and at the eighth replay of one packet, each replay being counted:
HELD in ARMED and RUN, training in CONFIG and COMMISSION. A link that trains comes UP with the neighbour that the topology places there,
and is HELD with PEER_ERR with any other. RETRAIN takes a HELD or DOWN link to training, except in ARMED and RUN, where nothing changes. -/
def Obligations.LinksTrainFallAndAreHeld : Prop :=
  ∀ (s : State) (k : Fin 4), s.up → s.hasPort k = true →
    let st := kydB k.val + 4
    ((s.bus.field st 1 0 = 2 ∨ s.bus.field st 1 0 = 1) → ∀ c ∈ [Instr.kydIdleTimeout k, .pcsLockLost k], Completes c s fun t => LinkLost s t k.val)
    ∧ (s.bus.field st 1 0 ≠ 2 → s.bus.field st 1 0 ≠ 1 → ∀ c ∈ [Instr.kydIdleTimeout k, .pcsLockLost k], Completes c s fun t => t = s)
    ∧ (∀ (q : BitVec 12) (n : Nat), s.portUp k.val = true → alook s.kydor.replays k.val = some (q.toNat, n) →
        (n < 7 → Completes (.kydNak k q) s fun t =>
          alook t.kydor.replays k.val = some (q.toNat, n + 1) ∧ Counted s t (kydB k.val + 0x10C) ∧ t.sd = s.sd
          ∧ t.bus = { s.bus with regs := t.bus.regs, out := (s.bus.replayFrom k.val q.toNat).reverse ++ s.bus.out }
          ∧ SameRegsBut s t [kydB k.val + 0x10C])
        ∧ (7 ≤ n → Completes (.kydNak k q) s fun t => LinkLost s t k.val ∧ Counted s t (kydB k.val + 0x10C)
          ∧ alook t.kydor.replays k.val = none))
    ∧ (∀ peer : Fin 32, 1 < s.bus.topo.size → s.bus.field st 1 0 = 1 → Completes (.kydLinkUp k peer) s fun t =>
        t.bus.field st 1 0 = (if s.bus.topo.neighbour k.val = peer.val ∧ bit s.bus.topo.ports k.val = true then 2 else 3)
        ∧ t.bus.reg (kydB k.val + 8) = peer.val
        ∧ (s.bus.topo.neighbour k.val ≠ peer.val → t.bus.flag st 30 = true) ∧ t.sd = s.sd ∧ SameMem s t)
    ∧ (s.sd.state ≠ .armed → s.sd.state ≠ .run → Completes (.retrain k) s fun t =>
        t.bus.field st 1 0 = (if s.bus.field st 1 0 = 2 then 2 else 1) ∧ OnlyRegs s t [st])
    ∧ (s.sd.state = .armed ∨ s.sd.state = .run → Completes (.retrain k) s fun t => t = s)

/-- R386, R437, R439, R440, R443, R449, R452: the monitors. A lost PLL lock is shown and counted. A clock off by more than 20,000 ppm
enters the safe state with cause 7, which persists until it is back in range; from step 4 of start-up it stops start-up with BOOT_CODE 4; a
clock that is absent does nothing. A failure of the die's own clock takes the outputs low and holds it; so does the loss of its rail. Four
samples of a rail beyond a trip point enter the safe state with cause 7, which persists until the rail is back, fewer do nothing. 120 °C
enters it with cause 8, which persists; 1 ms later, and not before, the main dies are held and SHDN_N is low. -/
def Obligations.MonitorsTripTheDevice : Prop :=
  ∀ (s : State) (now : Nat) (clk : Fin 9) (rail : Fin 10) (samples : Nat), s.bus.wf = true →
    let canFall := s.sdUp ∧ s.bus.late = [] ∧ s.canTrip true = true ∧ s.sd.latched = false
    (s.plat.pllOn = true → Completes .pllUnlock s fun t =>
      t.bus.flag pwrB 0 = false ∧ t.bus.flag pwrB 31 = true ∧ Counted s t (pwrB + 0x10C) ∧ OnlyRegs s t [pwrB, pwrB + 0x10C])
    ∧ (s.plat.pllOn = false → Completes .pllUnlock s fun t => t = s)
    ∧ (∀ ppm : Int, clockPresent s.bus.variant clk = true →
        (20000 < ppm.natAbs → canFall → Completes (.clockMonitorTrip ⟨clk, ppm⟩) s fun t =>
          SafeEntered s t 7 s.sd.lastFrame ∧ 32 + clk.val ∈ t.sd.persists)
        ∧ (20000 < ppm.natAbs → s.sdUp → s.sd.state = .boot → 4 ≤ s.plat.bootStep → s.plat.bootStopped = false →
          Completes (.clockMonitorTrip ⟨clk, ppm⟩) s fun t =>
            32 + clk.val ∈ t.sd.persists ∧ OnlySd { s with plat := { s.plat with bootCode := 4 } } t)
        ∧ (ppm.natAbs ≤ 20000 → s.sdUp → s.sd.persists.Pairwise (· < ·) → Completes (.clockMonitorTrip ⟨clk, ppm⟩) s fun t =>
          32 + clk.val ∉ t.sd.persists ∧ t = { s with sd := { s.sd with persists := t.sd.persists } }))
    ∧ (∀ ppm : Int, clockPresent s.bus.variant clk = false → Completes (.clockMonitorTrip ⟨clk, ppm⟩) s fun t => t = s)
    ∧ Completes .sdClockFailure s (fun t => t.deEnergised ∧ t.sd.halted = true ∧ OnlySd s t)
    ∧ Completes .juneshaRailLost s (fun t => t.deEnergised ∧ t.sd.railLost = true ∧ t.sd.state = .off ∧ t.bus = s.bus ∧ t.mgmt = s.mgmt)
    ∧ (canFall → 4 ≤ samples → Completes (.voltageFault rail samples) s fun t =>
        SafeEntered s t 7 s.sd.lastFrame ∧ 16 + rail.val ∈ t.sd.persists)
    ∧ (samples ≠ 0 → samples < 4 → Completes (.voltageFault rail samples) s fun t => t = s)
    ∧ (s.sdUp → s.sd.persists.Pairwise (· < ·) → Completes (.voltageFault rail 0) s fun t =>
        16 + rail.val ∉ t.sd.persists ∧ t = { s with sd := { s.sd with persists := t.sd.persists } })
    ∧ (canFall → Completes (.thermalTrip now) s fun t =>
        SafeEntered s t 8 s.sd.lastFrame ∧ 8 ∈ t.sd.persists ∧ t.plat.tripped = some (s.plat.tripped.getD now))
    ∧ (∀ t0, s.sdUp → s.plat.tripped = some t0 →
        (t0 + 1000000 ≤ now → Completes (.shdn now) s fun t =>
          t = { s.at now with plat := { s.plat with mainHeld := true, shdnLow := true } })
        ∧ (now < t0 + 1000000 → Completes (.shdn now) s fun t => t = s))

/-- R444, R445, R447, R448: power and temperature. POWER_LIMIT is taken in CONFIG and COMMISSION between 80 W and the variant's limit, and
otherwise refused. Above the limit the power duty falls by 1, and at 1 for 1 ms POWER_UNREACHED is set and counted; below 95 % of it
for 1 ms it rises by 1, to 16; between, it holds. From 105 °C, or with a hot stack, for 1 ms the thermal duty falls by 1, to 1; below
103 °C for 10 ms it rises by 1, to 16; between, it holds. The duty is the lesser, and CAP and THROTTLE show which is below 16. A stack's
temperature is shown; 95 °C makes it hot, 85 °C doubles its refresh rate. -/
def Obligations.PowerAndTemperatureSteerTheDuty : Prop :=
  ∀ (s : State) (now : Nat) (src : Source), s.up → s.sdUp →
    let limit := s.limitNow
    let duties (t : State) (np nt : Nat) : Prop := t.bus.np = np ∧ t.bus.nt = nt ∧ t.bus.field (pwrB + 8) 20 16 = Nat.min np nt
      ∧ t.bus.flag pwrB 1 = decide (np < 16) ∧ t.bus.flag pwrB 2 = decide (nt < 16)
    (∀ v : BitVec 16, s.calWritable = true → 80 ≤ v.toNat → v.toNat ≤ s.bus.variant.powerLimit → Completes (.powerLimit src v) s fun t =>
      t.mgmt.powerLimit = some v.toNat ∧ t.plat.pendLimit = some v.toNat ∧ t.plat.pendAt = s.now ∧ t.bus = s.bus ∧ t.sd = s.sd)
    ∧ (∀ v : BitVec 16, s.calWritable = false ∨ v.toNat < 80 ∨ s.bus.variant.powerLimit < v.toNat → Completes (.powerLimit src v) s fun t =>
      t.plat = s.plat ∧ t.mgmt.powerLimit = s.mgmt.powerLimit ∧ t.mgmt.sdoAborts = Nat.min (s.mgmt.sdoAborts + 1) 0xFFFFFFFF ∧ t.bus = s.bus
      ∧ t.sd = s.sd)
    ∧ (s.plat.pendLimit = none → ∀ p : BitVec 16,
        (10 * limit < p.toNat → 1 < s.bus.np → Completes (.powerDutyStep p now) s fun t =>
          duties t (s.bus.np - 1) s.bus.nt ∧ t.bus.reg (pwrB + 0x0C) = p.toNat ∧ SameMem s t)
        ∧ (∀ t0, 10 * limit < p.toNat → s.bus.np ≤ 1 → s.plat.unreachSince = some t0 → t0 + 1000000 ≤ now →
            Completes (.powerDutyStep p now) s fun t =>
              t.bus.flag pwrB 30 = true ∧ Counted s t (pwrB + 0x108) ∧ t.bus.np = s.bus.np ∧ SameMem s t)
        ∧ (∀ t0, 100 * p.toNat < 95 * (10 * limit) → s.plat.riseSince = some t0 → t0 + 1000000 ≤ now → Completes (.powerDutyStep p now) s fun t =>
          duties t (Nat.min 16 (s.bus.np + 1)) s.bus.nt ∧ SameMem s t)
        ∧ (p.toNat ≤ 10 * limit → (95 * (10 * limit) ≤ 100 * p.toNat ∨ s.plat.riseSince = none) → Completes (.powerDutyStep p now) s fun t =>
          t.bus.np = s.bus.np ∧ t.bus.nt = s.bus.nt ∧ SameMem s t))
    ∧ (∀ (sensor : Byte) (tj : BitVec 16),
        let hot := 840 ≤ tj.toInt ∨ s.plat.hbmHot ≠ []
        (∀ t0, hot → s.plat.thermSince = some t0 → t0 + 1000000 ≤ now → Completes (.thermalDutyStep sensor tj now) s fun t =>
          duties t s.bus.np (Nat.max 1 (s.bus.nt - 1)) ∧ t.bus.reg (pwrB + 0x10) = sensor.toNat * 2 ^ 16 + tj.toNat ∧ SameMem s t)
        ∧ (∀ t0, ¬hot → tj.toInt < 824 → s.plat.coolSince = some t0 → t0 + 10000000 ≤ now → Completes (.thermalDutyStep sensor tj now) s fun t =>
          duties t s.bus.np (Nat.min 16 (s.bus.nt + 1)) ∧ SameMem s t)
        ∧ (¬hot → 824 ≤ tj.toInt → Completes (.thermalDutyStep sensor tj now) s fun t =>
          t.bus.np = s.bus.np ∧ t.bus.nt = s.bus.nt ∧ SameMem s t))
    ∧ (∀ (k : Fin 6) (c : Byte), k.val < s.bus.variant.stacks → s.plat.hbmHot.Pairwise (· < ·) → s.plat.hbmRefresh2.Pairwise (· < ·) →
        Completes (.hbmTempRead k c) s fun t =>
          t.bus.reg (pwrB + 0x20 + 4 * k.val) = c.toNat ∧ (k.val ∈ t.plat.hbmHot ↔ 95 ≤ c.toInt)
          ∧ (∀ j, j ≠ k.val → (j ∈ t.plat.hbmHot ↔ j ∈ s.plat.hbmHot)) ∧ (k.val ∈ t.plat.hbmRefresh2 ↔ 85 ≤ c.toInt)
          ∧ t.bus.flag pwrB 3 = decide (t.plat.hbmHot ≠ []) ∧ SameMem s t ∧ SameRegsBut s t [pwrB + 0x20 + 4 * k.val, pwrB])
    ∧ (∀ (k : Fin 6) (c : Byte), s.bus.variant.stacks ≤ k.val → Completes (.hbmTempRead k c) s fun t => t = s)

/-- R405, R407, R450 to R452, R461: start-up and resets. SD_PG, and RESET_N low for 1 µs, reset the whole device. MAIN_PG starts the PLL,
its lock releases IOD0, an accepted Aedbaod slot releases the main dies into SELFTEST; training, then BIST, which enters the safe state
with cause 3 unless every unit passes, and leads to the sweep in either case. Where MAIN_PG, the lock or a slot fails to come, start-up
stops with its BOOT_CODE and only RESET is accepted. MAIN_PG falling after BOOT holds the main dies and enters the safe state with cause 7,
which persists. A reset or a down link of a PCIe endpoint touches that endpoint alone. -/
def Obligations.StartUpAndResets : Prop :=
  ∀ (s : State), s.bus.wf = true → s.bus.late = [] →
    (∀ tm, Completes (.sdPgRise tm) s fun t => BootKept s t ∧ t.plat.testMode = tm ∧ t.plat.tapEnabled = tm ∧ t.plat.tapIr = [])
    ∧ (∀ low, s.sd.railLost = false → (1000 ≤ low → Completes (.resetN low) s (BootKept s))
        ∧ (low < 1000 → Completes (.resetN low) s fun t => t = s))
    ∧ (s.sdUp → s.booting = true →
        (s.plat.bootStep ≤ 4 → Completes .mainPgRise s fun t =>
          t = { s with plat := { s.plat with mainPg := true, pllOn := true, bootStep := 4 } })
        ∧ (s.plat.bootStep = 4 → s.plat.pllOn = true → s.plat.mainPg = true → Completes .pllLock s fun t =>
            t.bus.flag pwrB 0 = true ∧ t.plat = { s.plat with bootStep := 5 } ∧ t.sd = s.sd ∧ SameMem s t ∧ SameRegsBut s t [pwrB])
        ∧ (∀ i, s.plat.bootStep = 5 → s.mgmt.bootSlot = some i → s.mgmt.bistRunning = [] → Completes .aedbaodRunning s fun t =>
            t.sd.state = .selftest ∧ t.plat = { s.plat with mainHeld := false, bootStep := 7 } ∧ t.mgmt.running = i ∧ t.deEnergised ∧ SameMem s t)
        ∧ (s.plat.mainPg = false → s.plat.bootStep ≤ 4 → Completes .mainPgTimeout s fun t =>
            t = { s with plat := { s.plat with bootCode := 3 } })
        ∧ (s.plat.pllOn = true → s.plat.bootStep = 4 → s.bus.flag pwrB 0 = false → Completes .pllLockTimeout s fun t =>
            t = { s with plat := { s.plat with bootCode := 4 } })
        ∧ (s.plat.bootStep = 5 → s.mgmt.bootSlot = none → Completes .noAedbaodSlotAccepted s fun t =>
            t = { s with plat := { s.plat with bootCode := 1 } })
        ∧ (Completes .mainPgFall s fun t =>
            t = { s with plat := { s.plat with mainPg := false, mainHeld := true, bootStep := Nat.min 4 s.plat.bootStep, pllOn := false } }))
    ∧ (s.sd.state = .boot → s.plat.bootStopped = true → ∀ n src, n ≠ 10 → s.commandCode n src ≠ 0)
    ∧ (∀ failed : List (Fin 6), s.plat.mainHeld = false → s.sd.state = .selftest → s.plat.bootStep = 7 →
        Completes (.hbmTrainingDone failed) s fun t =>
          (∀ k, k ∈ t.plat.hbmFailed ↔ k < s.bus.variant.stacks ∧ ∃ x ∈ failed, x.val = k) ∧ t.plat.bootStep = 8 ∧ t.sd = s.sd ∧ t.bus = s.bus)
    ∧ (∀ results, s.sdUp → s.plat.mainHeld = false → s.sd.state = .selftest → s.plat.bootStep = 8 → s.bistComplete results = true →
        (s.bistPasses results = true → Completes (.startupBistDone results) s fun t =>
          t.sd.state = .selftest ∧ t.plat.bootStep = 9
          ∧ ∀ u x, u < 14 → s.bistKind u = .tested → bistResultOf results u = some x →
              alook t.mgmt.unitResults u = some (bistRecord (s.bistPassed u x) x true (decide (u < 8))))
        ∧ (s.bistPasses results = false → s.sd.latched = false → Completes (.startupBistDone results) s fun t =>
          t.sd.state = .safe ∧ t.sd.latched = true ∧ t.sd.cause = 3 ∧ t.deEnergised ∧ t.plat.bootStep = 9))
    ∧ (s.sdUp → s.canTrip true = true → s.sd.latched = false → Completes .mainPgFall s fun t =>
        SafeEntered s t 7 s.sd.lastFrame ∧ 7 ∈ t.sd.persists ∧ t.plat.mainHeld = true ∧ t.plat.mainPg = false)
    ∧ (∀ d : Fin 2, d.val = 0 ∨ s.bus.variant.isX2 = true →
        let dropped (t : State) : Prop := (∀ x, x ∈ t.access.snaps ↔ x ∈ s.access.snaps ∧ x.1.1 ≠ .pcie d)
          ∧ (∀ x, x ∈ t.access.held ↔ x ∈ s.access.held ∧ x.1.1 ≠ .pcie d)
        (Completes (.perstN d true) s fun t => d.val ∈ t.plat.pcieReset ∧ dropped t
          ∧ t = { s with access := t.access, plat := { s.plat with pcieReset := t.plat.pcieReset } })
        ∧ (s.plat.pcieReset.Pairwise (· < ·) → Completes (.perstN d false) s fun t => d.val ∉ t.plat.pcieReset)
        ∧ (Completes (.pcieHotReset d) s fun t => dropped t ∧ t = { s with access := t.access })
        ∧ (Completes (.pcieLinkDown d true) s fun t => d.val ∈ t.plat.pcieDown ∧ t = { s with plat := { s.plat with pcieDown := t.plat.pcieDown } }))

/-- R455, R456, R459, R463, R464: test. BIST_START in CONFIG or COMMISSION, with RUN = 0, no frame open and no test running, runs the units
named; any other is refused and nothing of it takes effect. A unit that completes leaves its record, runs no longer, passes exactly when
its signatures are the golden ones, and leaves its memories at zero with BOOK_VALID or READY cleared; a quadrant's pass dates its stations'
passes. Each TAP instruction of a die in the chain becomes current and shifts its bits out, HIGHZ alone floats the outputs, IDCODE gives
the die's code; TRST_N brings every TAP to IDCODE. With the TAPs disabled nothing happens. -/
def Obligations.BistAndBoundaryScan : Prop :=
  ∀ (s : State) (src : Source) (v : Word) (now : Nat), s.bus.wf = true → s.sdUp → s.complete →
    (s.calWritable = true → s.bus.flag fseqB 0 = false → s.fseq.openFrames = [] → s.mgmt.bistRunning = [] → s.plat.mainHeld = false →
      bistBad s.bus.variant v.toNat = false → Completes (.bistStart src v) s fun t =>
        (∀ u, u ∈ t.mgmt.bistRunning ↔ u < 14 ∧ bit v.toNat u = true) ∧ t.bus = s.bus ∧ t.sd = s.sd)
    ∧ ((s.calWritable = false ∨ s.bus.flag fseqB 0 = true ∨ s.fseq.openFrames ≠ [] ∨ s.mgmt.bistRunning ≠ []
          ∨ bistBad s.bus.variant v.toNat = true) → Completes (.bistStart src v) s fun t =>
        t.mgmt.bistRunning = s.mgmt.bistRunning ∧ t.mgmt.sdoAborts = Nat.min (s.mgmt.sdoAborts + 1) 0xFFFFFFFF ∧ t.bus = s.bus ∧ t.sd = s.sd)
    ∧ (∀ (u : Fin 14) (r : BistResult), s.mgmt.bistRunning.contains u.val = true → Completes (.bistUnitDone u r now) s fun t =>
        u.val ∉ t.mgmt.bistRunning
        ∧ (∃ w, alook t.mgmt.unitResults u.val = some w ∧ w.length = 24 ∧ bit (fld w 0 4) 0 = true ∧ bit (fld w 0 4) 1 = s.bistPassed u.val r
            ∧ bit (fld w 0 4) 4 = false ∧ fld w 4 4 = r.duration.toNat ∧ fld w 16 8 = r.mbist.toNat)
        ∧ (u.val < 5 → t.bus.flag (fseqB + 4) 1 = false ∧ t.fseq.book = none ∧ t.sd.bookValid = false)
        ∧ (u.val = 4 ∨ 8 ≤ u.val → t.bus.flag (hcB + 4) 0 = false)
        ∧ (u.val < 4 → (∀ i a, i < 8 → a < 0x400000 → t.bus.rd ((8 * u.val + i) * 0x400000 + a) = 0)
            ∧ (s.bistPassed u.val r = true → ∀ i, i < 8 → t.sd.stationPass[8 * u.val + i]? = some now)))
    ∧ (∀ (u : Fin 14) (r : BistResult), s.bistPassed u.val r = true ↔
        r.mbist = (s.plat.golden.getD u.val (0, 0)).2 ∧ (u.val < 8 → r.lbist = (s.plat.golden.getD u.val (0, 0)).1))
    ∧ (∀ (u : Fin 14) (r : BistResult), s.mgmt.bistRunning.contains u.val = false → Completes (.bistUnitDone u r now) s fun t => t = s)
    ∧ (∀ (die : Fin 4) (xs ys : List Bool),
        let ops : List (Instr × Nat × List Bool) := [(.bypass die xs, 0, (false :: xs).take xs.length), (.idcode die, 1, shiftBits 32 (idcodeOf die)),
          (.samplePreload die xs ys, 2, xs), (.extest die xs, 3, xs), (.highz die, 4, []), (.clamp die, 5, []), (.extestPulse die xs, 6, xs),
          (.extestTrain die xs, 7, xs)]
        (s.plat.tapEnabled = true → (die.val ≠ 2 ∨ s.bus.variant.isX2 = true) → ∀ o ∈ ops, Completes o.1 s fun t =>
          t.bus = { s.bus with out := .tdo o.2.2 :: s.bus.out } ∧ alook t.plat.tapIr die.val = some o.2.1
          ∧ (s.plat.highz.Pairwise (· < ·) → (die.val ∈ t.plat.highz ↔ o.2.1 = 4))
          ∧ alook t.plat.boundary die.val = (if o.2.1 = 2 then some ys else alook s.plat.boundary die.val) ∧ t.sd = s.sd)
        ∧ (s.plat.tapEnabled = false ∨ (die.val = 2 ∧ s.bus.variant.isX2 = false) → ∀ o ∈ ops, Completes o.1 s fun t => t = s))
    ∧ Completes .trstN s (fun t => t = { s with plat := { s.plat with tapIr := [], highz := [] } })

end
end

