-- ==== Sys2Proof/Laws/Copies.lean ====
section
/-! SUPPORT. Laws of byte fields and of configuration copies: a copy reads back as it was written (R401, R403). -/

namespace Sys2Proof.Machine

-- Bytes ---------------------------------------------------------------------------------------------------------------------------

@[simp] theorem leBytes_length (k n : Nat) : (leBytes k n).length = k := by
  induction k generalizing n with
  | zero => rfl
  | succ k ih => simp [leBytes, ih]

@[simp] theorem zeros_length (k : Nat) : (zeros k).length = k := by simp [zeros]

@[simp] theorem sub_length (bs : List Byte) (o n : Nat) : (sub bs o n).length = n := by
  simp only [sub, zeros, List.length_append, List.length_take, List.length_drop, List.length_replicate]; omega

theorem leNat_leBytes (k n : Nat) : leNat (leBytes k n) = n % 256 ^ k := by
  induction k generalizing n with
  | zero => simp [leBytes, leNat, Nat.mod_one]
  | succ k ih =>
    have h : n % (256 * 256 ^ k) = n % 256 + 256 * (n / 256 % 256 ^ k) := Nat.mod_mul
    rw [show 256 ^ (k + 1) = 256 * 256 ^ k from Nat.pow_succ', h, leBytes, leNat, ih, BitVec.toNat_ofNat]

/-- A part that lies past the first of two pieces is a part of the second. -/
theorem sub_skip (a b : List Byte) (o n : Nat) (h : a.length ≤ o) : sub (a ++ b) o n = sub b (o - a.length) n := by
  simp [sub, List.drop_append, List.drop_eq_nil_of_le h]

/-- The first piece, read whole. -/
theorem sub_here (a b : List Byte) (n : Nat) (h : a.length = n) : sub (a ++ b) 0 n = a := by subst h; simp [sub, zeros]

theorem sub_all (a : List Byte) (n : Nat) (h : a.length = n) : sub a 0 n = a := by subst h; simp [sub, zeros]

/-- A field that was written as such reads as its value. -/
theorem fld_here (k n : Nat) (b : List Byte) (h : n < 256 ^ k) : fld (leBytes k n ++ b) 0 k = n := by
  rw [fld, sub_here _ _ _ (leBytes_length k n), leNat_leBytes, Nat.mod_eq_of_lt h]

theorem fld_skip (a b : List Byte) (o k : Nat) (h : a.length ≤ o) : fld (a ++ b) o k = fld b (o - a.length) k := by
  rw [fld, sub_skip a b o k h, fld]

-- The CRC's range -----------------------------------------------------------------------------------------------------------------

theorem crcBit_lt (c : Nat) (h : c < 2 ^ 32) : crcBit 0x82F63B78 c < 2 ^ 32 := by
  unfold crcBit; split
  · exact Nat.xor_lt_two_pow (by omega) (by decide)
  · omega

theorem crc32cRun_lt (bs : List Byte) (c : Nat) (h : c < 2 ^ 32) : crc32cRun c bs < 2 ^ 32 := by
  induction bs generalizing c with
  | nil => exact h
  | cons b bs ih =>
    refine ih _ ?_
    unfold crcByte
    iterate 8 refine crcBit_lt _ ?_
    exact Nat.xor_lt_two_pow h (by have := b.isLt; omega)

theorem crc32c_lt (bs : List Byte) : crc32c bs < 2 ^ 32 := Nat.xor_lt_two_pow (crc32cRun_lt bs _ (by decide)) (by decide)

-- Records -------------------------------------------------------------------------------------------------------------------------

theorem le_roundUp_four (n : Nat) : n ≤ roundUp n 4 := by unfold roundUp ceilDiv; omega

theorem recordBytes_length (r : Nat × List Byte) : (recordBytes r).length = 8 + roundUp r.2.length 4 := by
  have := le_roundUp_four r.2.length
  simp [recordBytes]; omega

theorem recordsBytes_length (l : List (Nat × List Byte)) : (recordsBytes l).length = recordsLength l := by
  have h (l : List (Nat × List Byte)) (n : Nat) :
      n + (recordsBytes l).length = (l.map (fun r => 8 + roundUp r.2.length 4)).foldl (· + ·) n := by
    induction l generalizing n with
    | nil => simp [recordsBytes]
    | cons r l ih => simp only [List.map_cons, List.foldl_cons, ← ih]; simp [recordsBytes, recordBytes_length]; omega
  have := h l 0
  simpa [recordsLength, lsum] using this

theorem length_le_recordsLength (l : List (Nat × List Byte)) : l.length ≤ recordsLength l := by
  rw [← recordsBytes_length]
  induction l with
  | nil => simp
  | cons r l ih =>
    have := recordBytes_length r
    simp [recordsBytes] at *; omega

/-- R401: records of keys and lengths that their fields can hold read back as they were written. -/
theorem readRecords_recordsBytes (l : List (Nat × List Byte)) (n : Nat) (hn : l.length ≤ n)
    (h : ∀ r ∈ l, r.1 < 2 ^ 24 ∧ r.2.length < 2 ^ 32) : readRecords n (recordsBytes l) = l := by
  induction l generalizing n with
  | nil => cases n <;> simp [readRecords, recordsBytes]
  | cons r l ih =>
    obtain ⟨m, rfl⟩ : ∃ m, n = m + 1 := ⟨n - 1, by simp at hn; omega⟩
    obtain ⟨hk, hv⟩ := h r (by simp)
    have hr := le_roundUp_four r.2.length
    have he : recordsBytes (r :: l) = recordBytes r ++ recordsBytes l := by simp [recordsBytes]
    have hlen := recordBytes_length r
    have f0 : fld (recordBytes r ++ recordsBytes l) 0 2 = r.1 / 256 := by
      simp only [recordBytes, List.append_assoc]; exact fld_here 2 _ _ (by omega)
    have f2 : fld (recordBytes r ++ recordsBytes l) 2 1 = r.1 % 256 := by
      simp only [recordBytes, List.append_assoc]
      rw [fld_skip _ _ _ _ (by simp)]; simp only [leBytes_length]; exact fld_here 1 _ _ (by omega)
    have f4 : fld (recordBytes r ++ recordsBytes l) 4 4 = r.2.length := by
      simp only [recordBytes, List.append_assoc]
      rw [fld_skip _ _ _ _ (by simp), fld_skip _ _ _ _ (by simp), fld_skip _ _ _ _ (by simp)]
      simp only [leBytes_length, zeros_length]; exact fld_here 4 _ _ (by omega)
    have f8 : sub (recordBytes r ++ recordsBytes l) 8 r.2.length = r.2 := by
      simp only [recordBytes, List.append_assoc]
      rw [sub_skip _ _ _ _ (by simp), sub_skip _ _ _ _ (by simp), sub_skip _ _ _ _ (by simp), sub_skip _ _ _ _ (by simp)]
      simp only [leBytes_length, zeros_length]; exact sub_here _ _ _ rfl
    rw [he, readRecords, if_neg (by simp [hlen]; omega), f0, f2, f4, f8,
      show (recordBytes r ++ recordsBytes l).drop (8 + roundUp r.2.length 4) = recordsBytes l by rw [← hlen]; simp,
      ih m (Nat.le_of_succ_le_succ hn) (fun x hx => h x (by simp [hx])),
      show odKey (r.1 / 256) (r.1 % 256) = r.1 by unfold odKey; omega]

-- Copies --------------------------------------------------------------------------------------------------------------------------

/-- The records of a written copy, its calibration first. -/
abbrev copyBody (cal : List Word) (recs : List (Nat × List Byte)) : List (Nat × List Byte) := (calKey, wordBytes cal) :: recs

theorem wordBytes_length (l : List Word) : (wordBytes l).length = 4 * l.length := by
  induction l with
  | nil => rfl
  | cons w l ih => simp [wordBytes] at *; omega

theorem fld_wordBytes (l : List Word) (i : Nat) (h : i < l.length) : fld (wordBytes l) (4 * i) 4 = (l[i]).toNat := by
  induction l generalizing i with
  | nil => simp at h
  | cons w l ih =>
    have e : wordBytes (w :: l) = leBytes 4 w.toNat ++ wordBytes l := by simp [wordBytes]
    cases i with
    | zero => rw [e]; exact fld_here 4 _ _ w.isLt
    | succ i =>
      rw [e, fld_skip _ _ _ _ (by rw [leBytes_length]; omega), leBytes_length, show 4 * (i + 1) - 4 = 4 * i by omega]
      exact ih i (by simpa using h)

theorem CfgCopy.of_bytes (seq calSeq : Word) (cal : List Word) (recs : List (Nat × List Byte)) :
    ∃ crc, (CfgCopy.of seq calSeq cal recs).bytes =
      copyHead seq calSeq (crc32c (wordBytes cal)) (recordsBytes (copyBody cal recs)).length crc
        ++ (recordsBytes (copyBody cal recs) ++ leBytes 4 (seq.toNat ^^^ 0xFFFFFFFF))
      ∧ crc = crc32c (copyHead seq calSeq (crc32c (wordBytes cal)) (recordsBytes (copyBody cal recs)).length 0
        ++ recordsBytes (copyBody cal recs)) := ⟨_, by simp [CfgCopy.of], rfl⟩

/-- What stands before a header's CRC. -/
def headStart (seq : Word) (len : Nat) : List Byte := leBytes 4 0x31464351 ++ leBytes 2 1 ++ zeros 2 ++ leBytes 4 seq.toNat ++ leBytes 4 len

/-- What stands after a header's CRC. -/
def headEnd (calSeq : Word) (calCrc : Nat) : List Byte := leBytes 4 calSeq.toNat ++ leBytes 4 calCrc ++ zeros 36

theorem headStart_length (seq : Word) (len : Nat) : (headStart seq len).length = 0x10 := by simp [headStart]

theorem headEnd_length (calSeq : Word) (calCrc : Nat) : (headEnd calSeq calCrc).length = 0x2C := by simp [headEnd]

theorem copyHead_parts (seq calSeq : Word) (calCrc len crc : Nat) (b : List Byte) :
    copyHead seq calSeq calCrc len crc ++ b = headStart seq len ++ (leBytes 4 crc ++ (headEnd calSeq calCrc ++ b)) := by
  simp only [copyHead, headStart, headEnd, List.append_assoc]

theorem copyHead_length (seq calSeq : Word) (a b c : Nat) : (copyHead seq calSeq a b c).length = 0x40 := by simp [copyHead]

theorem headStart_fields (seq : Word) (len : Nat) (b : List Byte) (hl : len < 2 ^ 32) :
    let h := headStart seq len ++ b
    fld h 0 4 = 0x31464351 ∧ fld h 4 2 = 1 ∧ fld h 8 4 = seq.toNat ∧ fld h 0x0C 4 = len := by
  have hs := seq.isLt
  simp only [headStart, List.append_assoc]
  refine ⟨fld_here 4 _ _ (by decide), ?_, ?_, ?_⟩
  · rw [fld_skip _ _ _ _ (by simp)]; simp only [leBytes_length]; exact fld_here 2 _ _ (by decide)
  · rw [fld_skip _ _ _ _ (by simp), fld_skip _ _ _ _ (by simp), fld_skip _ _ _ _ (by simp)]
    simp only [leBytes_length, zeros_length]; exact fld_here 4 _ _ (by omega)
  · rw [fld_skip _ _ _ _ (by simp), fld_skip _ _ _ _ (by simp), fld_skip _ _ _ _ (by simp), fld_skip _ _ _ _ (by simp)]
    simp only [leBytes_length, zeros_length]; exact fld_here 4 _ _ (by omega)

theorem headEnd_fields (calSeq : Word) (calCrc : Nat) (b : List Byte) (hc : calCrc < 2 ^ 32) :
    fld (headEnd calSeq calCrc ++ b) 0 4 = calSeq.toNat ∧ fld (headEnd calSeq calCrc ++ b) 4 4 = calCrc := by
  have ht := calSeq.isLt
  simp only [headEnd, List.append_assoc]
  refine ⟨fld_here 4 _ _ (by omega), ?_⟩
  rw [fld_skip _ _ _ _ (by simp)]; simp only [leBytes_length]; exact fld_here 4 _ _ (by omega)

/-- R401: a header's fields, whatever stands behind it. -/
theorem copyHead_fields (seq calSeq : Word) (calCrc len crc : Nat) (b : List Byte) (hc : calCrc < 2 ^ 32) (hl : len < 2 ^ 32)
    (hr : crc < 2 ^ 32) :
    let h := copyHead seq calSeq calCrc len crc ++ b
    fld h 0 4 = 0x31464351 ∧ fld h 4 2 = 1 ∧ fld h 8 4 = seq.toNat ∧ fld h 0x0C 4 = len ∧ fld h 0x10 4 = crc
    ∧ fld h 0x14 4 = calSeq.toNat ∧ fld h 0x18 4 = calCrc := by
  intro h
  have e : h = _ := copyHead_parts seq calSeq calCrc len crc b
  obtain ⟨f0, f4, f8, fc⟩ := headStart_fields seq len (leBytes 4 crc ++ (headEnd calSeq calCrc ++ b)) hl
  obtain ⟨g0, g4⟩ := headEnd_fields calSeq calCrc b hc
  rw [e]
  refine ⟨f0, f4, f8, fc, ?_, ?_, ?_⟩
  · rw [fld_skip _ _ _ _ (by simp [headStart_length]), headStart_length]; exact fld_here 4 _ _ hr
  · rw [fld_skip _ _ _ _ (by simp [headStart_length]), headStart_length, fld_skip _ _ _ _ (by simp), leBytes_length]; exact g0
  · rw [fld_skip _ _ _ _ (by simp [headStart_length]), headStart_length, fld_skip _ _ _ _ (by simp), leBytes_length]; exact g4

/-- R401, R403: a copy that fits is valid as written, and its header reads back. -/
theorem CfgCopy.of_valid (seq calSeq : Word) (cal : List Word) (recs : List (Nat × List Byte))
    (h : recordsLength (copyBody cal recs) ≤ 0x1FFFBC) :
    let c := CfgCopy.of seq calSeq cal recs
    c.valid = true ∧ c.seq = seq ∧ c.calSeq = calSeq ∧ c.calCrc = BitVec.ofNat 32 (crc32c (wordBytes cal))
    ∧ c.all = readRecords (recordsLength (copyBody cal recs)) (recordsBytes (copyBody cal recs)) := by
  obtain ⟨crc, hb, hcrc⟩ := CfgCopy.of_bytes seq calSeq cal recs
  have hlen := recordsBytes_length (copyBody cal recs)
  rw [hlen] at hb hcrc
  have hr : crc < 2 ^ 32 := hcrc ▸ crc32c_lt _
  obtain ⟨f0, f4, f8, fc, f10, f14, f18⟩ := copyHead_fields seq calSeq (crc32c (wordBytes cal)) (recordsLength (copyBody cal recs)) crc
    (recordsBytes (copyBody cal recs) ++ leBytes 4 (seq.toNat ^^^ 0xFFFFFFFF)) (crc32c_lt _) (by omega) hr
  rw [← hb] at f0 f4 f8 fc f10 f14 f18
  have hn : (CfgCopy.of seq calSeq cal recs).length = recordsLength (copyBody cal recs) := fc
  have hq : (CfgCopy.of seq calSeq cal recs).seq = seq := by simp [CfgCopy.seq, f8]
  have hm : fld (CfgCopy.of seq calSeq cal recs).bytes (0x40 + recordsLength (copyBody cal recs)) 4 = seq.toNat ^^^ 0xFFFFFFFF := by
    rw [hb, fld_skip _ _ _ _ (by simp [copyHead_length]), copyHead_length, fld_skip _ _ _ _ (by omega), hlen]
    have := fld_here 4 (seq.toNat ^^^ 0xFFFFFFFF) [] (Nat.xor_lt_two_pow seq.isLt (by decide))
    simpa using this
  have hx : (CfgCopy.of seq calSeq cal recs).crc = crc := by
    have e1 := copyHead_parts seq calSeq (crc32c (wordBytes cal)) (recordsLength (copyBody cal recs)) crc
      (recordsBytes (copyBody cal recs) ++ leBytes 4 (seq.toNat ^^^ 0xFFFFFFFF))
    have e2 := copyHead_parts seq calSeq (crc32c (wordBytes cal)) (recordsLength (copyBody cal recs)) 0 (recordsBytes (copyBody cal recs))
    rw [e1] at hb
    rw [e2] at hcrc
    rw [CfgCopy.crc, hn, hb, List.take_left' (headStart_length _ _), sub_skip _ _ _ _ (by simp [headStart_length]), headStart_length,
      sub_skip _ _ _ _ (by simp), leBytes_length, ← List.append_assoc (headEnd _ _) _ (leBytes 4 _),
      sub_here _ _ _ (by simp [headEnd_length, hlen]), List.append_assoc (headStart _ _)]
    exact hcrc.symm
  refine ⟨?_, hq, by simp [CfgCopy.calSeq, f14], by simp [CfgCopy.calCrc, f18], ?_⟩
  · simp [CfgCopy.valid, f0, f4, hn, h, hx, f10, hm, hq]
  · rw [CfgCopy.all, hn, hb, sub_skip _ _ _ _ (by simp [copyHead_length]), copyHead_length, sub_here _ _ _ hlen]

/-- R403: a written copy's records are the entries, and its calibration the one written. -/
theorem CfgCopy.of_contents (seq calSeq : Word) (cal : List Word) (recs : List (Nat × List Byte))
    (h : recordsLength (copyBody cal recs) ≤ 0x1FFFBC) (hc : cal.length = 256)
    (hr : ∀ r ∈ recs, r.1 < 2 ^ 24 ∧ r.2.length < 2 ^ 32 ∧ r.1 ≠ calKey) :
    (CfgCopy.of seq calSeq cal recs).records = recs ∧ (CfgCopy.of seq calSeq cal recs).cal = cal := by
  have hall : (CfgCopy.of seq calSeq cal recs).all = copyBody cal recs := by
    rw [(CfgCopy.of_valid seq calSeq cal recs h).2.2.2.2]
    refine readRecords_recordsBytes _ _ (length_le_recordsLength _) ?_
    intro r hm
    rcases List.mem_cons.mp hm with rfl | hm
    · exact ⟨show calKey < 2 ^ 24 by decide, by rw [wordBytes_length, hc]; decide⟩
    · exact ⟨(hr r hm).1, (hr r hm).2.1⟩
  refine ⟨?_, ?_⟩
  · rw [CfgCopy.records, hall, copyBody, List.filter_cons_of_neg (by simp)]
    exact List.filter_eq_self.mpr fun r hm => by simpa using (hr r hm).2.2
  · rw [CfgCopy.cal, hall]
    simp only [alook, if_true, Option.getD_some]
    refine List.ext_getElem (by simp [tab, hc]) fun i hi _ => ?_
    have hi : i < 256 := by simpa [tab] using hi
    simp only [tab, List.getElem_map, List.getElem_range]
    rw [fld_wordBytes _ _ (by omega)]; simp

/-- The entries that a copy holds have keys a record can hold, and none is the calibration's. -/
theorem copyKeys_fit (v : Variant) : ∀ k ∈ copyKeys v, k < 2 ^ 24 ∧ k ≠ calKey := by cases v <;> decide +kernel

end Sys2Proof.Machine
end

