-- ==== Sys2Proof/Laws/Sparse.lean ====
section
/-! SUPPORT. Laws of the sparse lists that hold memory and registers: they keep their canonical form, a read gives what was last
written, and a write leaves every other key alone. -/

namespace Sys2Proof.Machine

variable {α : Type} [DecidableEq α]

/-- A canonical list holds no key up to its lower bound. -/
theorem sget_below (d : Nat → α) : ∀ (l : List (Nat × α)) (j k : Nat), scanon d (some j) l = true → k ≤ j →
    sget (d k) l k = d k := by
  intro l j k h hk
  cases l with
  | nil => rfl
  | cons e t =>
    obtain ⟨i, w⟩ := e
    simp only [scanon, Bool.and_eq_true, decide_eq_true_eq] at h
    have h1 : ¬(i = k) := by omega
    have h2 : k < i := by omega
    simp [sget, h1, h2]

/-- Setting a key keeps the canonical form. -/
theorem sset_canon (d : Nat → α) : ∀ (l : List (Nat × α)) (lo : Option Nat) (k : Nat) (v : α), scanon d lo l = true →
    (∀ j, lo = some j → j < k) → scanon d lo (sset (d k) l k v) = true := by
  intro l
  induction l with
  | nil =>
    intro lo k v _ hlo
    by_cases hv : v = d k
    · simp [sset, hv, scanon]
    · cases lo with
      | none => simp [sset, hv, scanon]
      | some j => simp [sset, hv, scanon, hlo j rfl]
  | cons e t ih =>
    obtain ⟨i, w⟩ := e
    intro lo k v h hlo
    simp only [scanon, Bool.and_eq_true, decide_eq_true_eq] at h
    obtain ⟨⟨h1, h2⟩, h3⟩ := h
    by_cases hk : k = i
    · subst hk
      by_cases hv : v = d k
      · simp only [sset, hv, if_true]
        cases lo with
        | none =>
          cases t with
          | nil => rfl
          | cons e' t' =>
            obtain ⟨i', w'⟩ := e'
            simp only [scanon, Bool.and_eq_true, decide_eq_true_eq] at h3 ⊢
            exact ⟨⟨trivial, h3.1.2⟩, h3.2⟩
        | some j =>
          have hj := hlo j rfl
          cases t with
          | nil => rfl
          | cons e' t' =>
            obtain ⟨i', w'⟩ := e'
            simp only [scanon, Bool.and_eq_true, decide_eq_true_eq] at h3 ⊢
            exact ⟨⟨by omega, h3.1.2⟩, h3.2⟩
      · simp only [sset, hv, if_true, if_false, scanon, Bool.and_eq_true, decide_eq_true_eq]
        exact ⟨⟨h1, hv⟩, h3⟩
    · by_cases hlt : k < i
      · by_cases hv : v = d k
        · simp only [sset, hk, hlt, hv, if_true, if_false, scanon, Bool.and_eq_true, decide_eq_true_eq]
          exact ⟨⟨h1, h2⟩, h3⟩
        · simp only [sset, hk, hlt, hv, if_true, if_false, scanon, Bool.and_eq_true, decide_eq_true_eq]
          refine ⟨⟨?_, hv⟩, ⟨trivial, h2⟩, h3⟩
          cases lo with
          | none => trivial
          | some j => simpa using hlo j rfl
      · simp only [sset, hk, hlt, if_false, scanon, Bool.and_eq_true, decide_eq_true_eq]
        refine ⟨⟨h1, h2⟩, ih (some i) k v h3 ?_⟩
        intro j hj
        cases hj
        omega

/-- What a key reads as after a key was set. -/
theorem sget_sset (d : Nat → α) : ∀ (l : List (Nat × α)) (lo : Option Nat) (k k' : Nat) (v : α), scanon d lo l = true →
    sget (d k') (sset (d k) l k v) k' = if k' = k then v else sget (d k') l k' := by
  intro l
  induction l with
  | nil =>
    intro lo k k' v _
    by_cases hk : k' = k
    · subst hk
      by_cases hv : v = d k'
      · simp [sset, hv, sget]
      · simp [sset, hv, sget]
    · have hk2 : ¬(k = k') := fun h => hk h.symm
      by_cases hv : v = d k
      · simp [sset, hv, sget, hk]
      · simp [sset, hv, sget, hk, hk2]
  | cons e t ih =>
    obtain ⟨i, w⟩ := e
    intro lo k k' v h
    simp only [scanon, Bool.and_eq_true, decide_eq_true_eq] at h
    obtain ⟨⟨_, _⟩, h3⟩ := h
    by_cases hki : k = i
    · subst hki
      by_cases hkk : k' = k
      · subst hkk
        by_cases hv : v = d k'
        · have hb := sget_below d t k' k' h3 (Nat.le_refl _)
          simp [sset, hv, hb]
        · simp [sset, hv, sget]
      · have hne : ¬(k = k') := fun h => hkk h.symm
        by_cases hv : v = d k
        · by_cases hlt : k' < k
          · have hb := sget_below d t k k' h3 (by omega)
            simp [sset, hv, sget, hkk, hne, hlt, hb]
          · simp [sset, hv, sget, hkk, hne, hlt]
        · simp [sset, hv, sget, hkk, hne]
    · by_cases hlt : k < i
      · by_cases hkk : k' = k
        · subst hkk
          have hne : ¬(i = k') := fun h => hki h.symm
          by_cases hv : v = d k'
          · simp [sset, hki, hlt, hv, sget, hne]
          · simp [sset, hki, hlt, hv, sget]
        · have hne : ¬(k = k') := fun h => hkk h.symm
          by_cases hv : v = d k
          · simp [sset, hki, hlt, hv, hkk]
          · by_cases hlo : k' < k
            · have h4 : ¬(i = k') := by omega
              have h5 : k' < i := by omega
              simp [sset, hki, hlt, hv, sget, hkk, hne, hlo, h4, h5]
            · simp [sset, hki, hlt, hv, sget, hkk, hne, hlo]
      · by_cases hik : i = k'
        · subst hik
          have hkk : ¬(i = k) := fun h => hki h.symm
          simp [sset, hki, hlt, sget, hkk]
        · by_cases hlo : k' < i
          · have hkk : ¬(k' = k) := by omega
            simp [sset, hki, hlt, sget, hik, hlo, hkk]
          · simp only [sset, hki, hlt, if_false, sget, hik, hlo]
            exact ih (some i) k k' v h3

/-- A key reads as what was last written to it. -/
theorem sget_sset_same (d : Nat → α) (l : List (Nat × α)) (k : Nat) (v : α) (h : scanon d none l = true) :
    sget (d k) (sset (d k) l k v) k = v := by
  rw [sget_sset d l none k k v h]; simp

/-- A write leaves every other key alone. -/
theorem sget_sset_other (d : Nat → α) (l : List (Nat × α)) (k k' : Nat) (v : α) (h : scanon d none l = true) (hk : k' ≠ k) :
    sget (d k') (sset (d k) l k v) k' = sget (d k') l k' := by
  rw [sget_sset d l none k k' v h]; simp [hk]

/-- Dropping entries keeps the canonical form. -/
theorem filter_canon (d : Nat → α) (q : Nat × α → Bool) : ∀ (l : List (Nat × α)) (lo lo' : Option Nat), scanon d lo l = true →
    (∀ j, lo' = some j → ∃ i, lo = some i ∧ j ≤ i) → scanon d lo' (l.filter q) = true := by
  intro l
  induction l with
  | nil => intro lo lo' _ _; rfl
  | cons e t ih =>
    obtain ⟨i, w⟩ := e
    intro lo lo' h hl
    simp only [scanon, Bool.and_eq_true, decide_eq_true_eq] at h
    obtain ⟨⟨h1, h2⟩, h3⟩ := h
    by_cases hq : q (i, w) = true
    · simp only [List.filter_cons, hq, if_true, scanon, Bool.and_eq_true, decide_eq_true_eq]
      refine ⟨⟨?_, h2⟩, ih (some i) (some i) h3 (fun j hj => ⟨i, rfl, by cases hj; exact Nat.le_refl _⟩)⟩
      cases lo' with
      | none => trivial
      | some j =>
        obtain ⟨i', hi', hji⟩ := hl j rfl
        subst hi'
        simp only at h1
        simp only [decide_eq_true_eq] at h1 ⊢
        omega
    · simp only [List.filter_cons, hq]
      refine ih (some i) lo' h3 ?_
      intro j hj
      obtain ⟨i', hi', hji⟩ := hl j hj
      subst hi'
      simp only [decide_eq_true_eq] at h1
      exact ⟨i, rfl, by omega⟩

end Sys2Proof.Machine
end

