-- ==== Sys2Proof/Laws/Memory.lean ====
section
/-! SUPPORT. Laws of memory and of the register file: canonical form kept by every operation on them, and read over write. -/

namespace Sys2Proof.Machine

-- Byte memory -------------------------------------------------------------------------------------------------------------------------

theorem Mem.wr_wf (m : Mem) (a : Nat) (v : Byte) (h : m.wf = true) : (m.wr a v).wf = true :=
  sset_canon (fun _ => (0 : Byte)) m none a v h (fun _ hj => nomatch hj)

theorem Mem.wrN_wf : ∀ (bs : List Byte) (m : Mem) (a : Nat), m.wf = true → (m.wrN a bs).wf = true := by
  intro bs
  induction bs with
  | nil => intro m a h; exact h
  | cons v vs ih => intro m a h; exact ih (m.wr a v) (a + 1) (Mem.wr_wf m a v h)

theorem Mem.filter_wf (q : Host.Cell → Bool) (m : Mem) (h : m.wf = true) : Mem.wf (m.filter q) = true :=
  filter_canon (fun _ => (0 : Byte)) q m none none h (fun _ hj => nomatch hj)

theorem Mem.rd_wr_same (m : Mem) (a : Nat) (v : Byte) (h : m.wf = true) : (m.wr a v).rd a = v :=
  sget_sset_same (fun _ => (0 : Byte)) m a v h

theorem Mem.rd_wr_other (m : Mem) (a b : Nat) (v : Byte) (h : m.wf = true) (hb : b ≠ a) : (m.wr a v).rd b = m.rd b :=
  sget_sset_other (fun _ => (0 : Byte)) m a b v h hb

/-- A write of bytes leaves every address outside them alone. -/
theorem Mem.rd_wrN_out : ∀ (bs : List Byte) (m : Mem) (a b : Nat), m.wf = true → (b < a ∨ a + bs.length ≤ b) →
    (m.wrN a bs).rd b = m.rd b := by
  intro bs
  induction bs with
  | nil => intro m a b _ _; rfl
  | cons v vs ih =>
    intro m a b h hb
    simp only [List.length_cons] at hb
    have h1 := ih (m.wr a v) (a + 1) b (Mem.wr_wf m a v h) (by omega)
    have h2 := Mem.rd_wr_other m a b v h (by omega)
    exact h1.trans h2

/-- The bytes written are read back. -/
theorem Mem.rdN_wrN : ∀ (bs : List Byte) (m : Mem) (a : Nat), m.wf = true → (m.wrN a bs).rdN a bs.length = bs := by
  intro bs
  induction bs with
  | nil => intro m a _; rfl
  | cons v vs ih =>
    intro m a h
    have h0 := Mem.wr_wf m a v h
    have h1 := ih (m.wr a v) (a + 1) h0
    have h2 := Mem.rd_wrN_out vs (m.wr a v) (a + 1) a h0 (by omega)
    have h3 := Mem.rd_wr_same m a v h
    show (Mem.wrN (m.wr a v) (a + 1) vs).rd a :: (Mem.wrN (m.wr a v) (a + 1) vs).rdN (a + 1) vs.length = v :: vs
    rw [h1, h2, h3]

/-- A read of bytes depends only on the bytes read. -/
theorem Mem.rdN_congr : ∀ (n : Nat) (m m' : Mem) (a : Nat), (∀ b, a ≤ b → b < a + n → m'.rd b = m.rd b) →
    m'.rdN a n = m.rdN a n := by
  intro n
  induction n with
  | zero => intro m m' a _; rfl
  | succ n ih =>
    intro m m' a h
    show m'.rd a :: m'.rdN (a + 1) n = m.rd a :: m.rdN (a + 1) n
    rw [h a (Nat.le_refl _) (by omega), ih m m' (a + 1) (fun b h1 h2 => h b (by omega) (by omega))]

theorem Mem.rdN_length : ∀ (n : Nat) (m : Mem) (a : Nat), (m.rdN a n).length = n := by
  intro n
  induction n with
  | zero => intro m a; rfl
  | succ n ih => intro m a; show (m.rdN (a + 1) n).length + 1 = n + 1; rw [ih]

/-- Dropping the entries of some keys makes those keys read as unlisted, and leaves the others alone. -/
theorem sget_filter (d : Nat → Byte) (q : Nat → Bool) : ∀ (l : Mem) (lo : Option Nat) (k : Nat), scanon d lo l = true →
    sget (d k) (l.filter (fun c => q c.1)) k = if q k = true then sget (d k) l k else d k := by
  intro l
  induction l with
  | nil => intro lo k _; simp [sget]
  | cons e t ih =>
    obtain ⟨i, w⟩ := e
    intro lo k h
    have h0 := h
    simp only [scanon, Bool.and_eq_true, decide_eq_true_eq] at h
    have hi := ih (some i) k h.2
    by_cases hq : q i = true
    · rw [List.filter_cons_of_pos (by simpa using hq)]
      by_cases hik : i = k
      · subst hik; simp [sget, hq]
      · by_cases hlt : k < i
        · simp [sget, hik, hlt]
        · simp only [sget, hik, hlt, if_false]; exact hi
    · rw [List.filter_cons_of_neg (by simpa using hq), hi]
      by_cases hik : i = k
      · subst hik; simp [hq]
      · by_cases hlt : k < i
        · have := sget_below d t i k h.2 (by omega)
          simp [sget, hik, hlt, this]
        · simp [sget, hik, hlt]

-- Device memory ---------------------------------------------------------------------------------------------------------------------------

theorem Bus.wf_iff (b : Bus) : b.wf = true ↔
    Mem.wf b.mem = true ∧ Mem.wf b.host0 = true ∧ Mem.wf b.host1 = true ∧ RegFile.wf b.regs = true := by
  simp [Bus.wf, Bool.and_eq_true, and_assoc]

theorem Bus.store_wf (b : Bus) (a : Nat) (bs : List Byte) (bad : Bool) (h : b.wf = true) : (b.store a bs bad).wf = true := by
  rw [Bus.wf_iff] at h ⊢
  exact ⟨Mem.wrN_wf bs b.mem a h.1, h.2.1, h.2.2.1, h.2.2.2⟩

theorem Bus.zero_wf (b : Bus) (a n : Nat) (h : b.wf = true) : (b.zero a n).wf = true := by
  rw [Bus.wf_iff] at h ⊢
  exact ⟨Mem.filter_wf _ b.mem h.1, h.2.1, h.2.2.1, h.2.2.2⟩

/-- A region zeroed reads zero, and every other byte reads as before. -/
theorem Bus.rd_zero (b : Bus) (a n x : Nat) (h : b.wf = true) : (b.zero a n).rd x = if a ≤ x ∧ x < a + n then 0 else b.rd x := by
  rw [Bus.wf_iff] at h
  have := sget_filter (fun _ => (0 : Byte)) (fun k => decide (¬(a ≤ k ∧ k < a + n))) b.mem none x h.1
  show sget 0 (b.mem.filter (fun c => decide (¬(a ≤ c.1 ∧ c.1 < a + n)))) x = _
  rw [this]
  by_cases hx : a ≤ x ∧ x < a + n
  · simp [hx]
  · rw [if_pos (decide_eq_true hx), if_neg hx]; rfl

-- Register words -----------------------------------------------------------------------------------------------------------------------------

theorem Bus.setReg_wf (b : Bus) (a v : Nat) (h : b.wf = true) : (b.setReg a v).wf = true := by
  rw [Bus.wf_iff] at h ⊢
  exact ⟨h.1, h.2.1, h.2.2.1, sset_canon (fun a => regReset a) b.regs none a _ h.2.2.2 (fun _ hj => nomatch hj)⟩

theorem Bus.resetRegs_wf (b : Bus) (a e : Nat) (h : b.wf = true) : (b.resetRegs a e).wf = true := by
  rw [Bus.wf_iff] at h ⊢
  exact ⟨h.1, h.2.1, h.2.2.1, filter_canon (fun a => regReset a) _ b.regs none none h.2.2.2 (fun _ hj => nomatch hj)⟩

/-- A register word reads as what was last written to it. -/
theorem Bus.reg_setReg_same (b : Bus) (a v : Nat) (h : b.wf = true) : (b.setReg a v).reg a = v % 2 ^ 32 := by
  rw [Bus.wf_iff] at h
  show (sget (regReset a) (sset (regReset a) b.regs a (BitVec.ofNat 32 v)) a).toNat = v % 2 ^ 32
  rw [sget_sset_same (fun a => regReset a) b.regs a _ h.2.2.2]
  simp

/-- A write of one register word leaves the others alone. -/
theorem Bus.reg_setReg_other (b : Bus) (a a' v : Nat) (h : b.wf = true) (ha : a' ≠ a) : (b.setReg a v).reg a' = b.reg a' := by
  rw [Bus.wf_iff] at h
  show (sget (regReset a') (sset (regReset a) b.regs a (BitVec.ofNat 32 v)) a').toNat = _
  rw [sget_sset_other (fun a => regReset a) b.regs a a' _ h.2.2.2 ha]
  rfl

end Sys2Proof.Machine
end

