-- ==== Sys2Proof/Laws/State.lean ====
section
/-! SUPPORT. What each update of the state leaves in each field: true by unfolding, for simp. -/

namespace Sys2Proof.Machine

-- The bus ------------------------------------------------------------------------------------------------------------------------------
@[simp] theorem Bus.setReg_variant (b : Bus) (a v : Nat) : (b.setReg a v).variant = b.variant := rfl
@[simp] theorem Bus.setReg_mem (b : Bus) (a v : Nat) : (b.setReg a v).mem = b.mem := rfl
@[simp] theorem Bus.setReg_poison (b : Bus) (a v : Nat) : (b.setReg a v).poison = b.poison := rfl
@[simp] theorem Bus.setReg_host0 (b : Bus) (a v : Nat) : (b.setReg a v).host0 = b.host0 := rfl
@[simp] theorem Bus.setReg_host1 (b : Bus) (a v : Nat) : (b.setReg a v).host1 = b.host1 := rfl
@[simp] theorem Bus.setReg_unmapped (b : Bus) (a v : Nat) : (b.setReg a v).unmapped = b.unmapped := rfl
@[simp] theorem Bus.setReg_out (b : Bus) (a v : Nat) : (b.setReg a v).out = b.out := rfl
@[simp] theorem Bus.setReg_free (b : Bus) (a v : Nat) : (b.setReg a v).free = b.free := rfl
@[simp] theorem Bus.setReg_topo (b : Bus) (a v : Nat) : (b.setReg a v).topo = b.topo := rfl
@[simp] theorem Bus.setReg_late (b : Bus) (a v : Nat) : (b.setReg a v).late = b.late := rfl
@[simp] theorem Bus.setField_variant (b : Bus) (a hi lo v : Nat) : (b.setField a hi lo v).variant = b.variant := rfl
@[simp] theorem Bus.setField_mem (b : Bus) (a hi lo v : Nat) : (b.setField a hi lo v).mem = b.mem := rfl
@[simp] theorem Bus.setField_poison (b : Bus) (a hi lo v : Nat) : (b.setField a hi lo v).poison = b.poison := rfl
@[simp] theorem Bus.setField_host0 (b : Bus) (a hi lo v : Nat) : (b.setField a hi lo v).host0 = b.host0 := rfl
@[simp] theorem Bus.setField_host1 (b : Bus) (a hi lo v : Nat) : (b.setField a hi lo v).host1 = b.host1 := rfl
@[simp] theorem Bus.setField_unmapped (b : Bus) (a hi lo v : Nat) : (b.setField a hi lo v).unmapped = b.unmapped := rfl
@[simp] theorem Bus.setField_out (b : Bus) (a hi lo v : Nat) : (b.setField a hi lo v).out = b.out := rfl
@[simp] theorem Bus.setField_free (b : Bus) (a hi lo v : Nat) : (b.setField a hi lo v).free = b.free := rfl
@[simp] theorem Bus.setField_topo (b : Bus) (a hi lo v : Nat) : (b.setField a hi lo v).topo = b.topo := rfl
@[simp] theorem Bus.setField_late (b : Bus) (a hi lo v : Nat) : (b.setField a hi lo v).late = b.late := rfl
@[simp] theorem Bus.setFlag_variant (b : Bus) (a i : Nat) (v : Bool) : (b.setFlag a i v).variant = b.variant := rfl
@[simp] theorem Bus.setFlag_mem (b : Bus) (a i : Nat) (v : Bool) : (b.setFlag a i v).mem = b.mem := rfl
@[simp] theorem Bus.setFlag_poison (b : Bus) (a i : Nat) (v : Bool) : (b.setFlag a i v).poison = b.poison := rfl
@[simp] theorem Bus.setFlag_host0 (b : Bus) (a i : Nat) (v : Bool) : (b.setFlag a i v).host0 = b.host0 := rfl
@[simp] theorem Bus.setFlag_host1 (b : Bus) (a i : Nat) (v : Bool) : (b.setFlag a i v).host1 = b.host1 := rfl
@[simp] theorem Bus.setFlag_unmapped (b : Bus) (a i : Nat) (v : Bool) : (b.setFlag a i v).unmapped = b.unmapped := rfl
@[simp] theorem Bus.setFlag_out (b : Bus) (a i : Nat) (v : Bool) : (b.setFlag a i v).out = b.out := rfl
@[simp] theorem Bus.setFlag_free (b : Bus) (a i : Nat) (v : Bool) : (b.setFlag a i v).free = b.free := rfl
@[simp] theorem Bus.setFlag_topo (b : Bus) (a i : Nat) (v : Bool) : (b.setFlag a i v).topo = b.topo := rfl
@[simp] theorem Bus.setFlag_late (b : Bus) (a i : Nat) (v : Bool) : (b.setFlag a i v).late = b.late := rfl
@[simp] theorem Bus.inc_variant (b : Bus) (a : Nat) : (b.inc a).variant = b.variant := rfl
@[simp] theorem Bus.inc_mem (b : Bus) (a : Nat) : (b.inc a).mem = b.mem := rfl
@[simp] theorem Bus.inc_poison (b : Bus) (a : Nat) : (b.inc a).poison = b.poison := rfl
@[simp] theorem Bus.inc_host0 (b : Bus) (a : Nat) : (b.inc a).host0 = b.host0 := rfl
@[simp] theorem Bus.inc_host1 (b : Bus) (a : Nat) : (b.inc a).host1 = b.host1 := rfl
@[simp] theorem Bus.inc_unmapped (b : Bus) (a : Nat) : (b.inc a).unmapped = b.unmapped := rfl
@[simp] theorem Bus.inc_out (b : Bus) (a : Nat) : (b.inc a).out = b.out := rfl
@[simp] theorem Bus.inc_free (b : Bus) (a : Nat) : (b.inc a).free = b.free := rfl
@[simp] theorem Bus.inc_topo (b : Bus) (a : Nat) : (b.inc a).topo = b.topo := rfl
@[simp] theorem Bus.inc_late (b : Bus) (a : Nat) : (b.inc a).late = b.late := rfl
@[simp] theorem Bus.emit_variant (b : Bus) (x : Out) : (b.emit x).variant = b.variant := rfl
@[simp] theorem Bus.emit_mem (b : Bus) (x : Out) : (b.emit x).mem = b.mem := rfl
@[simp] theorem Bus.emit_poison (b : Bus) (x : Out) : (b.emit x).poison = b.poison := rfl
@[simp] theorem Bus.setReg_hostBad0 (b : Bus) (a v : Nat) : (b.setReg a v).hostBad0 = b.hostBad0 := rfl
@[simp] theorem Bus.setReg_hostBad1 (b : Bus) (a v : Nat) : (b.setReg a v).hostBad1 = b.hostBad1 := rfl
@[simp] theorem Bus.setReg_view (b : Bus) (a v : Nat) : (b.setReg a v).view = b.view := rfl
@[simp] theorem Bus.setReg_hcWays (b : Bus) (a v : Nat) : (b.setReg a v).hcWays = b.hcWays := rfl
@[simp] theorem Bus.setField_hostBad0 (b : Bus) (a hi lo v : Nat) : (b.setField a hi lo v).hostBad0 = b.hostBad0 := rfl
@[simp] theorem Bus.setField_hostBad1 (b : Bus) (a hi lo v : Nat) : (b.setField a hi lo v).hostBad1 = b.hostBad1 := rfl
@[simp] theorem Bus.setField_view (b : Bus) (a hi lo v : Nat) : (b.setField a hi lo v).view = b.view := rfl
@[simp] theorem Bus.setField_hcWays (b : Bus) (a hi lo v : Nat) : (b.setField a hi lo v).hcWays = b.hcWays := rfl
@[simp] theorem Bus.setFlag_hostBad0 (b : Bus) (a i : Nat) (v : Bool) : (b.setFlag a i v).hostBad0 = b.hostBad0 := rfl
@[simp] theorem Bus.setFlag_hostBad1 (b : Bus) (a i : Nat) (v : Bool) : (b.setFlag a i v).hostBad1 = b.hostBad1 := rfl
@[simp] theorem Bus.setFlag_view (b : Bus) (a i : Nat) (v : Bool) : (b.setFlag a i v).view = b.view := rfl
@[simp] theorem Bus.setFlag_hcWays (b : Bus) (a i : Nat) (v : Bool) : (b.setFlag a i v).hcWays = b.hcWays := rfl
@[simp] theorem Bus.inc_hostBad0 (b : Bus) (a : Nat) : (b.inc a).hostBad0 = b.hostBad0 := rfl
@[simp] theorem Bus.inc_hostBad1 (b : Bus) (a : Nat) : (b.inc a).hostBad1 = b.hostBad1 := rfl
@[simp] theorem Bus.inc_view (b : Bus) (a : Nat) : (b.inc a).view = b.view := rfl
@[simp] theorem Bus.inc_hcWays (b : Bus) (a : Nat) : (b.inc a).hcWays = b.hcWays := rfl
@[simp] theorem Bus.emit_hostBad0 (b : Bus) (x : Out) : (b.emit x).hostBad0 = b.hostBad0 := rfl
@[simp] theorem Bus.emit_hostBad1 (b : Bus) (x : Out) : (b.emit x).hostBad1 = b.hostBad1 := rfl
@[simp] theorem Bus.emit_view (b : Bus) (x : Out) : (b.emit x).view = b.view := rfl
@[simp] theorem Bus.emit_hcWays (b : Bus) (x : Out) : (b.emit x).hcWays = b.hcWays := rfl
@[simp] theorem Bus.store_hostBad0 (b : Bus) (a : Nat) (bs : List Byte) (bad : Bool) : (b.store a bs bad).hostBad0 = b.hostBad0 := rfl
@[simp] theorem Bus.store_hostBad1 (b : Bus) (a : Nat) (bs : List Byte) (bad : Bool) : (b.store a bs bad).hostBad1 = b.hostBad1 := rfl
@[simp] theorem Bus.store_view (b : Bus) (a : Nat) (bs : List Byte) (bad : Bool) : (b.store a bs bad).view = b.view := rfl
@[simp] theorem Bus.store_hcWays (b : Bus) (a : Nat) (bs : List Byte) (bad : Bool) : (b.store a bs bad).hcWays = b.hcWays := rfl
@[simp] theorem Bus.zero_hostBad0 (b : Bus) (a n : Nat) : (b.zero a n).hostBad0 = b.hostBad0 := rfl
@[simp] theorem Bus.zero_hostBad1 (b : Bus) (a n : Nat) : (b.zero a n).hostBad1 = b.hostBad1 := rfl
@[simp] theorem Bus.zero_view (b : Bus) (a n : Nat) : (b.zero a n).view = b.view := rfl
@[simp] theorem Bus.zero_hcWays (b : Bus) (a n : Nat) : (b.zero a n).hcWays = b.hcWays := rfl
@[simp] theorem Bus.emit_regs (b : Bus) (x : Out) : (b.emit x).regs = b.regs := rfl
@[simp] theorem Bus.emit_host0 (b : Bus) (x : Out) : (b.emit x).host0 = b.host0 := rfl
@[simp] theorem Bus.emit_host1 (b : Bus) (x : Out) : (b.emit x).host1 = b.host1 := rfl
@[simp] theorem Bus.emit_unmapped (b : Bus) (x : Out) : (b.emit x).unmapped = b.unmapped := rfl
@[simp] theorem Bus.emit_free (b : Bus) (x : Out) : (b.emit x).free = b.free := rfl
@[simp] theorem Bus.emit_topo (b : Bus) (x : Out) : (b.emit x).topo = b.topo := rfl
@[simp] theorem Bus.emit_late (b : Bus) (x : Out) : (b.emit x).late = b.late := rfl
@[simp] theorem Bus.emit_out (b : Bus) (x : Out) : (b.emit x).out = x :: b.out := rfl
@[simp] theorem Bus.store_variant (b : Bus) (a : Nat) (bs : List Byte) (bad : Bool) : (b.store a bs bad).variant = b.variant := rfl
@[simp] theorem Bus.store_regs (b : Bus) (a : Nat) (bs : List Byte) (bad : Bool) : (b.store a bs bad).regs = b.regs := rfl
@[simp] theorem Bus.store_host0 (b : Bus) (a : Nat) (bs : List Byte) (bad : Bool) : (b.store a bs bad).host0 = b.host0 := rfl
@[simp] theorem Bus.store_host1 (b : Bus) (a : Nat) (bs : List Byte) (bad : Bool) : (b.store a bs bad).host1 = b.host1 := rfl
@[simp] theorem Bus.store_unmapped (b : Bus) (a : Nat) (bs : List Byte) (bad : Bool) : (b.store a bs bad).unmapped = b.unmapped := rfl
@[simp] theorem Bus.store_out (b : Bus) (a : Nat) (bs : List Byte) (bad : Bool) : (b.store a bs bad).out = b.out := rfl
@[simp] theorem Bus.store_free (b : Bus) (a : Nat) (bs : List Byte) (bad : Bool) : (b.store a bs bad).free = b.free := rfl
@[simp] theorem Bus.store_topo (b : Bus) (a : Nat) (bs : List Byte) (bad : Bool) : (b.store a bs bad).topo = b.topo := rfl
@[simp] theorem Bus.store_late (b : Bus) (a : Nat) (bs : List Byte) (bad : Bool) : (b.store a bs bad).late = b.late := rfl
@[simp] theorem Bus.zero_variant (b : Bus) (a n : Nat) : (b.zero a n).variant = b.variant := rfl
@[simp] theorem Bus.zero_regs (b : Bus) (a n : Nat) : (b.zero a n).regs = b.regs := rfl
@[simp] theorem Bus.zero_host0 (b : Bus) (a n : Nat) : (b.zero a n).host0 = b.host0 := rfl
@[simp] theorem Bus.zero_host1 (b : Bus) (a n : Nat) : (b.zero a n).host1 = b.host1 := rfl
@[simp] theorem Bus.zero_unmapped (b : Bus) (a n : Nat) : (b.zero a n).unmapped = b.unmapped := rfl
@[simp] theorem Bus.zero_out (b : Bus) (a n : Nat) : (b.zero a n).out = b.out := rfl
@[simp] theorem Bus.zero_free (b : Bus) (a n : Nat) : (b.zero a n).free = b.free := rfl
@[simp] theorem Bus.zero_topo (b : Bus) (a n : Nat) : (b.zero a n).topo = b.topo := rfl
@[simp] theorem Bus.zero_late (b : Bus) (a n : Nat) : (b.zero a n).late = b.late := rfl
@[simp] theorem Bus.setReg_sent (b : Bus) (a v : Nat) : (b.setReg a v).sent = b.sent := rfl
@[simp] theorem Bus.setReg_lseqs (b : Bus) (a v : Nat) : (b.setReg a v).lseqs = b.lseqs := rfl
@[simp] theorem Bus.setField_sent (b : Bus) (a hi lo v : Nat) : (b.setField a hi lo v).sent = b.sent := rfl
@[simp] theorem Bus.setField_lseqs (b : Bus) (a hi lo v : Nat) : (b.setField a hi lo v).lseqs = b.lseqs := rfl
@[simp] theorem Bus.setFlag_sent (b : Bus) (a i : Nat) (v : Bool) : (b.setFlag a i v).sent = b.sent := rfl
@[simp] theorem Bus.setFlag_lseqs (b : Bus) (a i : Nat) (v : Bool) : (b.setFlag a i v).lseqs = b.lseqs := rfl
@[simp] theorem Bus.inc_sent (b : Bus) (a : Nat) : (b.inc a).sent = b.sent := rfl
@[simp] theorem Bus.inc_lseqs (b : Bus) (a : Nat) : (b.inc a).lseqs = b.lseqs := rfl
@[simp] theorem Bus.emit_sent (b : Bus) (x : Out) : (b.emit x).sent = b.sent := rfl
@[simp] theorem Bus.emit_lseqs (b : Bus) (x : Out) : (b.emit x).lseqs = b.lseqs := rfl
@[simp] theorem Bus.store_sent (b : Bus) (a : Nat) (bs : List Byte) (bad : Bool) : (b.store a bs bad).sent = b.sent := rfl
@[simp] theorem Bus.store_lseqs (b : Bus) (a : Nat) (bs : List Byte) (bad : Bool) : (b.store a bs bad).lseqs = b.lseqs := rfl
@[simp] theorem Bus.zero_sent (b : Bus) (a n : Nat) : (b.zero a n).sent = b.sent := rfl
@[simp] theorem Bus.zero_lseqs (b : Bus) (a n : Nat) : (b.zero a n).lseqs = b.lseqs := rfl
@[simp] theorem Bus.kydPost_variant (b : Bus) (k : Nat) (o : Out) : (b.kydPost k o).variant = b.variant := rfl
@[simp] theorem Bus.kydPost_mem (b : Bus) (k : Nat) (o : Out) : (b.kydPost k o).mem = b.mem := rfl
@[simp] theorem Bus.kydPost_poison (b : Bus) (k : Nat) (o : Out) : (b.kydPost k o).poison = b.poison := rfl
@[simp] theorem Bus.kydPost_regs (b : Bus) (k : Nat) (o : Out) : (b.kydPost k o).regs = (b.inc (kydB k + 0x100)).regs := rfl
@[simp] theorem Bus.kydPost_reg (b : Bus) (k : Nat) (o : Out) (a : Nat) : (b.kydPost k o).reg a = (b.inc (kydB k + 0x100)).reg a := rfl
@[simp] theorem Bus.kydPost_host0 (b : Bus) (k : Nat) (o : Out) : (b.kydPost k o).host0 = b.host0 := rfl
@[simp] theorem Bus.kydPost_host1 (b : Bus) (k : Nat) (o : Out) : (b.kydPost k o).host1 = b.host1 := rfl
@[simp] theorem Bus.kydPost_hostBad0 (b : Bus) (k : Nat) (o : Out) : (b.kydPost k o).hostBad0 = b.hostBad0 := rfl
@[simp] theorem Bus.kydPost_hostBad1 (b : Bus) (k : Nat) (o : Out) : (b.kydPost k o).hostBad1 = b.hostBad1 := rfl
@[simp] theorem Bus.kydPost_unmapped (b : Bus) (k : Nat) (o : Out) : (b.kydPost k o).unmapped = b.unmapped := rfl
@[simp] theorem Bus.kydPost_out (b : Bus) (k : Nat) (o : Out) : (b.kydPost k o).out = b.out := rfl
@[simp] theorem Bus.kydPost_topo (b : Bus) (k : Nat) (o : Out) : (b.kydPost k o).topo = b.topo := rfl
@[simp] theorem Bus.kydPost_late (b : Bus) (k : Nat) (o : Out) : (b.kydPost k o).late = b.late := rfl
@[simp] theorem Bus.kydPost_view (b : Bus) (k : Nat) (o : Out) : (b.kydPost k o).view = b.view := rfl
@[simp] theorem Bus.kydPost_hcWays (b : Bus) (k : Nat) (o : Out) : (b.kydPost k o).hcWays = b.hcWays := rfl
@[simp] theorem Bus.kydPost_free (b : Bus) (k : Nat) (o : Out) : (b.kydPost k o).free = b.free := rfl
@[simp] theorem Bus.emit_reg (b : Bus) (x : Out) (a : Nat) : (b.emit x).reg a = b.reg a := rfl
@[simp] theorem Bus.store_reg (b : Bus) (a : Nat) (bs : List Byte) (bad : Bool) (r : Nat) : (b.store a bs bad).reg r = b.reg r := rfl

-- The state -----------------------------------------------------------------------------------------------------------------------------
@[simp] theorem State.onBus_bus (s : State) (f : Bus → Bus) : (s.onBus f).bus = f s.bus := rfl
@[simp] theorem State.onBus_access (s : State) (f : Bus → Bus) : (s.onBus f).access = s.access := rfl
@[simp] theorem State.onBus_intake (s : State) (f : Bus → Bus) : (s.onBus f).intake = s.intake := rfl
@[simp] theorem State.onBus_hist (s : State) (f : Bus → Bus) : (s.onBus f).hist = s.hist := rfl
@[simp] theorem State.onBus_fseq (s : State) (f : Bus → Bus) : (s.onBus f).fseq = s.fseq := rfl
@[simp] theorem State.onBus_stns (s : State) (f : Bus → Bus) : (s.onBus f).stns = s.stns := rfl
@[simp] theorem State.onBus_cams (s : State) (f : Bus → Bus) : (s.onBus f).cams = s.cams := rfl
@[simp] theorem State.onBus_select (s : State) (f : Bus → Bus) : (s.onBus f).select = s.select := rfl
@[simp] theorem State.onBus_dma (s : State) (f : Bus → Bus) : (s.onBus f).dma = s.dma := rfl
@[simp] theorem State.onBus_net (s : State) (f : Bus → Bus) : (s.onBus f).net = s.net := rfl
@[simp] theorem State.onBus_calib (s : State) (f : Bus → Bus) : (s.onBus f).calib = s.calib := rfl
@[simp] theorem State.onBus_sd (s : State) (f : Bus → Bus) : (s.onBus f).sd = s.sd := rfl
@[simp] theorem State.onBus_mgmt (s : State) (f : Bus → Bus) : (s.onBus f).mgmt = s.mgmt := rfl
@[simp] theorem State.onBus_kydor (s : State) (f : Bus → Bus) : (s.onBus f).kydor = s.kydor := rfl
@[simp] theorem State.onBus_plat (s : State) (f : Bus → Bus) : (s.onBus f).plat = s.plat := rfl
@[simp] theorem State.onBus_pending (s : State) (f : Bus → Bus) : (s.onBus f).pending = s.pending := rfl
@[simp] theorem State.emit_bus (s : State) (x : Out) : (s.emit x).bus = s.bus.emit x := rfl
@[simp] theorem State.emit_access (s : State) (x : Out) : (s.emit x).access = s.access := rfl
@[simp] theorem State.emit_intake (s : State) (x : Out) : (s.emit x).intake = s.intake := rfl
@[simp] theorem State.emit_hist (s : State) (x : Out) : (s.emit x).hist = s.hist := rfl
@[simp] theorem State.emit_fseq (s : State) (x : Out) : (s.emit x).fseq = s.fseq := rfl
@[simp] theorem State.emit_stns (s : State) (x : Out) : (s.emit x).stns = s.stns := rfl
@[simp] theorem State.emit_cams (s : State) (x : Out) : (s.emit x).cams = s.cams := rfl
@[simp] theorem State.emit_select (s : State) (x : Out) : (s.emit x).select = s.select := rfl
@[simp] theorem State.emit_dma (s : State) (x : Out) : (s.emit x).dma = s.dma := rfl
@[simp] theorem State.emit_net (s : State) (x : Out) : (s.emit x).net = s.net := rfl
@[simp] theorem State.emit_calib (s : State) (x : Out) : (s.emit x).calib = s.calib := rfl
@[simp] theorem State.emit_sd (s : State) (x : Out) : (s.emit x).sd = s.sd := rfl
@[simp] theorem State.emit_mgmt (s : State) (x : Out) : (s.emit x).mgmt = s.mgmt := rfl
@[simp] theorem State.emit_kydor (s : State) (x : Out) : (s.emit x).kydor = s.kydor := rfl
@[simp] theorem State.emit_plat (s : State) (x : Out) : (s.emit x).plat = s.plat := rfl
@[simp] theorem State.emit_pending (s : State) (x : Out) : (s.emit x).pending = s.pending := rfl
@[simp] theorem State.at_bus (s : State) (t : Nat) : (s.at t).bus = s.bus := by unfold State.at; split <;> rfl
@[simp] theorem State.at_access (s : State) (t : Nat) : (s.at t).access = s.access := by unfold State.at; split <;> rfl
@[simp] theorem State.at_intake (s : State) (t : Nat) : (s.at t).intake = s.intake := by unfold State.at; split <;> rfl
@[simp] theorem State.at_hist (s : State) (t : Nat) : (s.at t).hist = s.hist := by unfold State.at; split <;> rfl
@[simp] theorem State.at_fseq (s : State) (t : Nat) : (s.at t).fseq = s.fseq := by unfold State.at; split <;> rfl
@[simp] theorem State.at_stns (s : State) (t : Nat) : (s.at t).stns = s.stns := by unfold State.at; split <;> rfl
@[simp] theorem State.at_cams (s : State) (t : Nat) : (s.at t).cams = s.cams := by unfold State.at; split <;> rfl
@[simp] theorem State.at_select (s : State) (t : Nat) : (s.at t).select = s.select := by unfold State.at; split <;> rfl
@[simp] theorem State.at_dma (s : State) (t : Nat) : (s.at t).dma = s.dma := by unfold State.at; split <;> rfl
@[simp] theorem State.at_calib (s : State) (t : Nat) : (s.at t).calib = s.calib := by unfold State.at; split <;> rfl
@[simp] theorem State.at_sd (s : State) (t : Nat) : (s.at t).sd = s.sd := by unfold State.at; split <;> rfl
@[simp] theorem State.at_mgmt (s : State) (t : Nat) : (s.at t).mgmt = s.mgmt := by unfold State.at; split <;> rfl
@[simp] theorem State.at_kydor (s : State) (t : Nat) : (s.at t).kydor = s.kydor := by unfold State.at; split <;> rfl
@[simp] theorem State.at_plat (s : State) (t : Nat) : (s.at t).plat = s.plat := by unfold State.at; split <;> rfl
@[simp] theorem State.at_pending (s : State) (t : Nat) : (s.at t).pending = s.pending := by unfold State.at; split <;> rfl
@[simp] theorem State.setCtx_bus (s : State) (u : UnitId) (p : Fin 2) (x : Ctx) : (s.setCtx u p x).bus = s.bus := rfl
@[simp] theorem State.setCtx_access (s : State) (u : UnitId) (p : Fin 2) (x : Ctx) : (s.setCtx u p x).access = s.access := rfl
@[simp] theorem State.setCtx_intake (s : State) (u : UnitId) (p : Fin 2) (x : Ctx) : (s.setCtx u p x).intake = s.intake := rfl
@[simp] theorem State.setCtx_hist (s : State) (u : UnitId) (p : Fin 2) (x : Ctx) : (s.setCtx u p x).hist = s.hist := rfl
@[simp] theorem State.setCtx_stns (s : State) (u : UnitId) (p : Fin 2) (x : Ctx) : (s.setCtx u p x).stns = s.stns := rfl
@[simp] theorem State.setCtx_cams (s : State) (u : UnitId) (p : Fin 2) (x : Ctx) : (s.setCtx u p x).cams = s.cams := rfl
@[simp] theorem State.setCtx_select (s : State) (u : UnitId) (p : Fin 2) (x : Ctx) : (s.setCtx u p x).select = s.select := rfl
@[simp] theorem State.setCtx_dma (s : State) (u : UnitId) (p : Fin 2) (x : Ctx) : (s.setCtx u p x).dma = s.dma := rfl
@[simp] theorem State.setCtx_net (s : State) (u : UnitId) (p : Fin 2) (x : Ctx) : (s.setCtx u p x).net = s.net := rfl
@[simp] theorem State.setCtx_calib (s : State) (u : UnitId) (p : Fin 2) (x : Ctx) : (s.setCtx u p x).calib = s.calib := rfl
@[simp] theorem State.setCtx_sd (s : State) (u : UnitId) (p : Fin 2) (x : Ctx) : (s.setCtx u p x).sd = s.sd := rfl
@[simp] theorem State.setCtx_mgmt (s : State) (u : UnitId) (p : Fin 2) (x : Ctx) : (s.setCtx u p x).mgmt = s.mgmt := rfl
@[simp] theorem State.setCtx_kydor (s : State) (u : UnitId) (p : Fin 2) (x : Ctx) : (s.setCtx u p x).kydor = s.kydor := rfl
@[simp] theorem State.setCtx_plat (s : State) (u : UnitId) (p : Fin 2) (x : Ctx) : (s.setCtx u p x).plat = s.plat := rfl
@[simp] theorem State.setCtx_pending (s : State) (u : UnitId) (p : Fin 2) (x : Ctx) : (s.setCtx u p x).pending = s.pending := rfl
@[simp] theorem State.sdCount_access (s : State) (i n : Nat) : (s.sdCount i n).access = s.access := rfl
@[simp] theorem State.sdCount_intake (s : State) (i n : Nat) : (s.sdCount i n).intake = s.intake := rfl
@[simp] theorem State.sdCount_hist (s : State) (i n : Nat) : (s.sdCount i n).hist = s.hist := rfl
@[simp] theorem State.sdCount_fseq (s : State) (i n : Nat) : (s.sdCount i n).fseq = s.fseq := rfl
@[simp] theorem State.sdCount_stns (s : State) (i n : Nat) : (s.sdCount i n).stns = s.stns := rfl
@[simp] theorem State.sdCount_cams (s : State) (i n : Nat) : (s.sdCount i n).cams = s.cams := rfl
@[simp] theorem State.sdCount_select (s : State) (i n : Nat) : (s.sdCount i n).select = s.select := rfl
@[simp] theorem State.sdCount_dma (s : State) (i n : Nat) : (s.sdCount i n).dma = s.dma := rfl
@[simp] theorem State.sdCount_net (s : State) (i n : Nat) : (s.sdCount i n).net = s.net := rfl
@[simp] theorem State.sdCount_calib (s : State) (i n : Nat) : (s.sdCount i n).calib = s.calib := rfl
@[simp] theorem State.sdCount_sd (s : State) (i n : Nat) : (s.sdCount i n).sd = s.sd := rfl
@[simp] theorem State.sdCount_mgmt (s : State) (i n : Nat) : (s.sdCount i n).mgmt = s.mgmt := rfl
@[simp] theorem State.sdCount_kydor (s : State) (i n : Nat) : (s.sdCount i n).kydor = s.kydor := rfl
@[simp] theorem State.sdCount_plat (s : State) (i n : Nat) : (s.sdCount i n).plat = s.plat := rfl
@[simp] theorem State.sdCount_pending (s : State) (i n : Nat) : (s.sdCount i n).pending = s.pending := rfl
@[simp] theorem State.logEvent_bus (s : State) (i u c k : Nat) : (s.logEvent i u c k).bus = s.bus := rfl
@[simp] theorem State.logEvent_access (s : State) (i u c k : Nat) : (s.logEvent i u c k).access = s.access := rfl
@[simp] theorem State.logEvent_intake (s : State) (i u c k : Nat) : (s.logEvent i u c k).intake = s.intake := rfl
@[simp] theorem State.logEvent_hist (s : State) (i u c k : Nat) : (s.logEvent i u c k).hist = s.hist := rfl
@[simp] theorem State.logEvent_fseq (s : State) (i u c k : Nat) : (s.logEvent i u c k).fseq = s.fseq := rfl
@[simp] theorem State.logEvent_stns (s : State) (i u c k : Nat) : (s.logEvent i u c k).stns = s.stns := rfl
@[simp] theorem State.logEvent_cams (s : State) (i u c k : Nat) : (s.logEvent i u c k).cams = s.cams := rfl
@[simp] theorem State.logEvent_select (s : State) (i u c k : Nat) : (s.logEvent i u c k).select = s.select := rfl
@[simp] theorem State.logEvent_dma (s : State) (i u c k : Nat) : (s.logEvent i u c k).dma = s.dma := rfl
@[simp] theorem State.logEvent_net (s : State) (i u c k : Nat) : (s.logEvent i u c k).net = s.net := rfl
@[simp] theorem State.logEvent_calib (s : State) (i u c k : Nat) : (s.logEvent i u c k).calib = s.calib := rfl
@[simp] theorem State.logEvent_sd (s : State) (i u c k : Nat) : (s.logEvent i u c k).sd = s.sd := rfl
@[simp] theorem State.logEvent_kydor (s : State) (i u c k : Nat) : (s.logEvent i u c k).kydor = s.kydor := rfl
@[simp] theorem State.logEvent_plat (s : State) (i u c k : Nat) : (s.logEvent i u c k).plat = s.plat := rfl
@[simp] theorem State.logEvent_pending (s : State) (i u c k : Nat) : (s.logEvent i u c k).pending = s.pending := rfl
@[simp] theorem State.logRequest_bus (s : State) (i u : Nat) (src : Source) (c k : Nat) : (s.logRequest i u src c k).bus = s.bus := by
  unfold State.logRequest; split <;> rfl
@[simp] theorem State.logRequest_access (s : State) (i u : Nat) (src : Source) (c k : Nat) : (s.logRequest i u src c k).access = s.access := by
  unfold State.logRequest; split <;> rfl
@[simp] theorem State.logRequest_intake (s : State) (i u : Nat) (src : Source) (c k : Nat) : (s.logRequest i u src c k).intake = s.intake := by
  unfold State.logRequest; split <;> rfl
@[simp] theorem State.logRequest_hist (s : State) (i u : Nat) (src : Source) (c k : Nat) : (s.logRequest i u src c k).hist = s.hist := by
  unfold State.logRequest; split <;> rfl
@[simp] theorem State.logRequest_fseq (s : State) (i u : Nat) (src : Source) (c k : Nat) : (s.logRequest i u src c k).fseq = s.fseq := by
  unfold State.logRequest; split <;> rfl
@[simp] theorem State.logRequest_stns (s : State) (i u : Nat) (src : Source) (c k : Nat) : (s.logRequest i u src c k).stns = s.stns := by
  unfold State.logRequest; split <;> rfl
@[simp] theorem State.logRequest_cams (s : State) (i u : Nat) (src : Source) (c k : Nat) : (s.logRequest i u src c k).cams = s.cams := by
  unfold State.logRequest; split <;> rfl
@[simp] theorem State.logRequest_select (s : State) (i u : Nat) (src : Source) (c k : Nat) : (s.logRequest i u src c k).select = s.select := by
  unfold State.logRequest; split <;> rfl
@[simp] theorem State.logRequest_dma (s : State) (i u : Nat) (src : Source) (c k : Nat) : (s.logRequest i u src c k).dma = s.dma := by
  unfold State.logRequest; split <;> rfl
@[simp] theorem State.logRequest_net (s : State) (i u : Nat) (src : Source) (c k : Nat) : (s.logRequest i u src c k).net = s.net := by
  unfold State.logRequest; split <;> rfl
@[simp] theorem State.logRequest_calib (s : State) (i u : Nat) (src : Source) (c k : Nat) : (s.logRequest i u src c k).calib = s.calib := by
  unfold State.logRequest; split <;> rfl
@[simp] theorem State.logRequest_sd (s : State) (i u : Nat) (src : Source) (c k : Nat) : (s.logRequest i u src c k).sd = s.sd := by
  unfold State.logRequest; split <;> rfl
@[simp] theorem State.logRequest_kydor (s : State) (i u : Nat) (src : Source) (c k : Nat) : (s.logRequest i u src c k).kydor = s.kydor := by
  unfold State.logRequest; split <;> rfl
@[simp] theorem State.logRequest_plat (s : State) (i u : Nat) (src : Source) (c k : Nat) : (s.logRequest i u src c k).plat = s.plat := by
  unfold State.logRequest; split <;> rfl
@[simp] theorem State.logRequest_pending (s : State) (i u : Nat) (src : Source) (c k : Nat) : (s.logRequest i u src c k).pending = s.pending := by
  unfold State.logRequest; split <;> rfl
@[simp] theorem State.setSdo_bus (s : State) (c : Fin 2) (x : Option SdoXfer) : (s.setSdo c x).bus = s.bus := rfl
@[simp] theorem State.setSdo_access (s : State) (c : Fin 2) (x : Option SdoXfer) : (s.setSdo c x).access = s.access := rfl
@[simp] theorem State.setSdo_intake (s : State) (c : Fin 2) (x : Option SdoXfer) : (s.setSdo c x).intake = s.intake := rfl
@[simp] theorem State.setSdo_hist (s : State) (c : Fin 2) (x : Option SdoXfer) : (s.setSdo c x).hist = s.hist := rfl
@[simp] theorem State.setSdo_fseq (s : State) (c : Fin 2) (x : Option SdoXfer) : (s.setSdo c x).fseq = s.fseq := rfl
@[simp] theorem State.setSdo_stns (s : State) (c : Fin 2) (x : Option SdoXfer) : (s.setSdo c x).stns = s.stns := rfl
@[simp] theorem State.setSdo_cams (s : State) (c : Fin 2) (x : Option SdoXfer) : (s.setSdo c x).cams = s.cams := rfl
@[simp] theorem State.setSdo_select (s : State) (c : Fin 2) (x : Option SdoXfer) : (s.setSdo c x).select = s.select := rfl
@[simp] theorem State.setSdo_dma (s : State) (c : Fin 2) (x : Option SdoXfer) : (s.setSdo c x).dma = s.dma := rfl
@[simp] theorem State.setSdo_net (s : State) (c : Fin 2) (x : Option SdoXfer) : (s.setSdo c x).net = s.net := rfl
@[simp] theorem State.setSdo_calib (s : State) (c : Fin 2) (x : Option SdoXfer) : (s.setSdo c x).calib = s.calib := rfl
@[simp] theorem State.setSdo_sd (s : State) (c : Fin 2) (x : Option SdoXfer) : (s.setSdo c x).sd = s.sd := rfl
@[simp] theorem State.setSdo_kydor (s : State) (c : Fin 2) (x : Option SdoXfer) : (s.setSdo c x).kydor = s.kydor := rfl
@[simp] theorem State.setSdo_plat (s : State) (c : Fin 2) (x : Option SdoXfer) : (s.setSdo c x).plat = s.plat := rfl
@[simp] theorem State.setSdo_pending (s : State) (c : Fin 2) (x : Option SdoXfer) : (s.setSdo c x).pending = s.pending := rfl
@[simp] theorem State.setPersist_bus (s : State) (c : Nat) (v : Bool) : (s.setPersist c v).bus = s.bus := rfl
@[simp] theorem State.setPersist_access (s : State) (c : Nat) (v : Bool) : (s.setPersist c v).access = s.access := rfl
@[simp] theorem State.setPersist_intake (s : State) (c : Nat) (v : Bool) : (s.setPersist c v).intake = s.intake := rfl
@[simp] theorem State.setPersist_hist (s : State) (c : Nat) (v : Bool) : (s.setPersist c v).hist = s.hist := rfl
@[simp] theorem State.setPersist_fseq (s : State) (c : Nat) (v : Bool) : (s.setPersist c v).fseq = s.fseq := rfl
@[simp] theorem State.setPersist_stns (s : State) (c : Nat) (v : Bool) : (s.setPersist c v).stns = s.stns := rfl
@[simp] theorem State.setPersist_cams (s : State) (c : Nat) (v : Bool) : (s.setPersist c v).cams = s.cams := rfl
@[simp] theorem State.setPersist_select (s : State) (c : Nat) (v : Bool) : (s.setPersist c v).select = s.select := rfl
@[simp] theorem State.setPersist_dma (s : State) (c : Nat) (v : Bool) : (s.setPersist c v).dma = s.dma := rfl
@[simp] theorem State.setPersist_net (s : State) (c : Nat) (v : Bool) : (s.setPersist c v).net = s.net := rfl
@[simp] theorem State.setPersist_calib (s : State) (c : Nat) (v : Bool) : (s.setPersist c v).calib = s.calib := rfl
@[simp] theorem State.setPersist_mgmt (s : State) (c : Nat) (v : Bool) : (s.setPersist c v).mgmt = s.mgmt := rfl
@[simp] theorem State.setPersist_kydor (s : State) (c : Nat) (v : Bool) : (s.setPersist c v).kydor = s.kydor := rfl
@[simp] theorem State.setPersist_plat (s : State) (c : Nat) (v : Bool) : (s.setPersist c v).plat = s.plat := rfl
@[simp] theorem State.setPersist_pending (s : State) (c : Nat) (v : Bool) : (s.setPersist c v).pending = s.pending := rfl

/-- The view of a running unit is the unit's alone: what it sees changes nothing that it does not read through it. -/
@[simp] theorem State.seenBy_access (s : State) (r : Requester) : (s.seenBy r).access = s.access := rfl
@[simp] theorem State.seenBy_fseq (s : State) (r : Requester) : (s.seenBy r).fseq = s.fseq := rfl
@[simp] theorem State.seenBy_sd (s : State) (r : Requester) : (s.seenBy r).sd = s.sd := rfl
@[simp] theorem State.seenBy_mgmt (s : State) (r : Requester) : (s.seenBy r).mgmt = s.mgmt := rfl
@[simp] theorem State.seenBy_plat (s : State) (r : Requester) : (s.seenBy r).plat = s.plat := rfl
@[simp] theorem State.seenBy_dma (s : State) (r : Requester) : (s.seenBy r).dma = s.dma := rfl
@[simp] theorem State.seenBy_stns (s : State) (r : Requester) : (s.seenBy r).stns = s.stns := rfl
@[simp] theorem State.seenBy_kydor (s : State) (r : Requester) : (s.seenBy r).kydor = s.kydor := rfl
@[simp] theorem State.seenBy_reg (s : State) (r : Requester) (a : Nat) : (s.seenBy r).bus.reg a = s.bus.reg a := rfl
@[simp] theorem State.seenBy_rd (s : State) (r : Requester) (a : Nat) : (s.seenBy r).bus.rd a = s.bus.rd a := rfl
@[simp] theorem State.seenBy_variant (s : State) (r : Requester) : (s.seenBy r).bus.variant = s.bus.variant := rfl
@[simp] theorem State.seenBy_late (s : State) (r : Requester) : (s.seenBy r).bus.late = s.bus.late := rfl

-- Gates -------------------------------------------------------------------------------------------------------------------------------------

/-- While the main dies are held in reset, what they would do has no effect. -/
theorem State.main_held (s : State) (f : State → State) (h : s.plat.mainHeld = true) : s.main f = s := by simp [State.main, h]

theorem State.main_runs (s : State) (f : State → State) (h : s.plat.mainHeld = false) : s.main f = f s := by simp [State.main, h]

/-- A Junesha die that is halted or has lost its rail does nothing. -/
theorem State.onSd_dead (s : State) (f : State → State) (h : s.sd.halted = true ∨ s.sd.railLost = true) : s.onSd f = s := by
  rcases h with h | h <;> simp [State.onSd, h]

theorem State.onSd_runs (s : State) (f : State → State) (h : s.sd.halted = false) (h' : s.sd.railLost = false) : s.onSd f = f s := by
  simp [State.onSd, h, h']

/-- A command that left no write to be performed is settled. -/
theorem State.settle_done (o : Option (UnitId × Fin 2)) (n : Nat) (s : State) (h : s.bus.late = []) : s.settle o n = s := by
  cases n with
  | zero => show { s with bus := { s.bus with late := [] } } = s; rw [← h]
  | succ n => simp [State.settle, h]

theorem settled_done (o : Option (UnitId × Fin 2)) (s : State) (h : s.bus.late = []) : settled o (.next s) = .next s := by
  simp [settled, State.settle_done o 4 s h]

-- Steps -------------------------------------------------------------------------------------------------------------------------------------

/-- A step command of a context with no task, or one that is stopped, is its run alone. -/
theorem taskStep_idle (u : UnitId) (p : Fin 2) (run : State → Host.Outcome State Fault Refusal) (s : State) (h : s.live u p = none) :
    taskStep u p run s = run s := by
  simp [taskStep, h]

/-- A step command of a live context: the run over what the unit sees, its accesses performed, and what follows the step. -/
theorem taskStep_runs (u : UnitId) (p : Fin 2) (run : State → Host.Outcome State Fault Refusal) (s t : State) (x : Ctx) (fr : OpenFrame)
    (h : s.live u p = some (x, fr)) (hr : run (s.seenBy (.unit (unitNo u))) = .next t) :
    taskStep u p run s
      = .next (((t.onBus (fun b => { b with view := s.bus.view })).settle (some (u, p)) 4).afterStep u p (x.tags ++ x.owed)) := by
  simp only [taskStep, h, hr, State.onBus]

/-- After a step that still waits for a peer's answer nothing more happens than the release of what has drained. -/
theorem State.afterStep_waits (u : UnitId) (p : Fin 2) (pre : List Nat) (s : State) (y : Ctx) (h : (s.freeDrained u p pre).ctx u p = some y)
    (hw : y.due = none ∨ y.tags ≠ []) : s.afterStep u p pre = s.freeDrained u p pre := by
  rcases hw with hw | hw <;> simp [State.afterStep, h, hw]

/-- After a step that waits for no answer its signals are given and its list moves on. -/
theorem State.afterStep_ends (u : UnitId) (p : Fin 2) (pre : List Nat) (s : State) (y : Ctx) (h : (s.freeDrained u p pre).ctx u p = some y)
    (hd : y.due.isSome = true) (hw : y.tags = []) : s.afterStep u p pre = (s.freeDrained u p pre).endStep u p := by
  simp [State.afterStep, h, hd, hw]

/-- What follows a step for a context that is gone: nothing more than the release of what has drained. -/
theorem State.afterStep_gone (u : UnitId) (p : Fin 2) (pre : List Nat) (s : State) (h : (s.freeDrained u p pre).ctx u p = none) :
    s.afterStep u p pre = s.freeDrained u p pre := by
  simp [State.afterStep, h]

end Sys2Proof.Machine
end

