-- ==== Sys2Proof/Laws/Registers.lean ====
section
/-! SUPPORT. Laws of register words, their fields, flags and counters: what each reads as after a write to it, and that a write leaves
every other word alone. -/

namespace Sys2Proof.Machine

-- Bit fields --------------------------------------------------------------------------------------------------------------------------------

theorem setBits_lt (n hi lo v w : Nat) (hn : n < 2 ^ w) (h1 : lo ≤ hi) (h2 : hi < w) : setBits n hi lo v < 2 ^ w := by
  unfold setBits
  have hs : (2 : Nat) ^ (hi + 1) = 2 ^ (hi + 1 - lo) * 2 ^ lo := by rw [← Nat.pow_add]; congr 1; omega
  have hw : (2 : Nat) ^ w = 2 ^ (w - (hi + 1)) * 2 ^ (hi + 1) := by rw [← Nat.pow_add]; congr 1; omega
  have hq : n / 2 ^ (hi + 1) < 2 ^ (w - (hi + 1)) := Nat.div_lt_of_lt_mul (by rw [Nat.mul_comm, ← hw]; exact hn)
  have hv : v % 2 ^ (hi + 1 - lo) < 2 ^ (hi + 1 - lo) := Nat.mod_lt _ (Nat.two_pow_pos _)
  have hl : n % 2 ^ lo < 2 ^ lo := Nat.mod_lt _ (Nat.two_pow_pos _)
  have h3 : v % 2 ^ (hi + 1 - lo) * 2 ^ lo + n % 2 ^ lo < 2 ^ (hi + 1) := by
    rw [hs]
    calc v % 2 ^ (hi + 1 - lo) * 2 ^ lo + n % 2 ^ lo < v % 2 ^ (hi + 1 - lo) * 2 ^ lo + 2 ^ lo := by omega
      _ = (v % 2 ^ (hi + 1 - lo) + 1) * 2 ^ lo := by rw [Nat.add_mul, Nat.one_mul]
      _ ≤ 2 ^ (hi + 1 - lo) * 2 ^ lo := Nat.mul_le_mul_right _ hv
  calc n / 2 ^ (hi + 1) * 2 ^ (hi + 1) + v % 2 ^ (hi + 1 - lo) * 2 ^ lo + n % 2 ^ lo
      < n / 2 ^ (hi + 1) * 2 ^ (hi + 1) + 2 ^ (hi + 1) := by omega
    _ = (n / 2 ^ (hi + 1) + 1) * 2 ^ (hi + 1) := by rw [Nat.add_mul, Nat.one_mul]
    _ ≤ 2 ^ (w - (hi + 1)) * 2 ^ (hi + 1) := Nat.mul_le_mul_right _ hq
    _ = 2 ^ w := hw.symm

/-- Bit `i` of a word with a field replaced: the field's own bit, or the bit that was there. -/
theorem bit_setBits (n hi lo v i : Nat) (h1 : lo ≤ hi) :
    bit (setBits n hi lo v) i = if lo ≤ i ∧ i ≤ hi then bit v (i - lo) else bit n i := by
  have hb : ∀ m j, bit m j = m.testBit j := by
    intro m j; unfold bit; rw [Nat.testBit_eq_decide_div_mod_eq]
  have hl : n % 2 ^ lo < 2 ^ lo := Nat.mod_lt _ (Nat.two_pow_pos _)
  have hs : (2 : Nat) ^ (hi + 1) = 2 ^ lo * 2 ^ (hi + 1 - lo) := by rw [← Nat.pow_add]; congr 1; omega
  have hv : v % 2 ^ (hi + 1 - lo) < 2 ^ (hi + 1 - lo) := Nat.mod_lt _ (Nat.two_pow_pos _)
  have hx : v % 2 ^ (hi + 1 - lo) * 2 ^ lo + n % 2 ^ lo < 2 ^ (hi + 1) := by
    rw [hs]
    calc v % 2 ^ (hi + 1 - lo) * 2 ^ lo + n % 2 ^ lo < v % 2 ^ (hi + 1 - lo) * 2 ^ lo + 2 ^ lo := by omega
      _ = (v % 2 ^ (hi + 1 - lo) + 1) * 2 ^ lo := by rw [Nat.add_mul, Nat.one_mul]
      _ ≤ 2 ^ (hi + 1 - lo) * 2 ^ lo := Nat.mul_le_mul_right _ hv
      _ = _ := Nat.mul_comm _ _
  rw [hb, hb, hb]
  unfold setBits
  rw [Nat.add_assoc, Nat.mul_comm (n / 2 ^ (hi + 1)), Nat.testBit_two_pow_mul_add _ hx]
  by_cases hi' : i < hi + 1
  · rw [if_pos hi', Nat.mul_comm (v % _), Nat.testBit_two_pow_mul_add _ hl]
    by_cases hlo : i < lo
    · rw [if_pos hlo, if_neg (by omega), Nat.testBit_mod_two_pow]
      simp [hlo]
    · rw [if_neg hlo, if_pos (by omega), Nat.testBit_mod_two_pow]
      have : i - lo < hi + 1 - lo := by omega
      simp [this]
  · rw [if_neg hi', if_neg (by omega), Nat.testBit_div_two_pow]
    congr 1; omega

/-- Two words with the same bits are the same. -/
theorem eq_of_bits (m n : Nat) (h : ∀ i, bit m i = bit n i) : m = n := by
  apply Nat.eq_of_testBit_eq
  intro i
  have := h i
  unfold bit at this
  rw [Nat.testBit_eq_decide_div_mod_eq, Nat.testBit_eq_decide_div_mod_eq]
  exact this

/-- Bit `i` of a field. -/
theorem bit_bits (n hi lo i : Nat) : bit (bits n hi lo) i = (decide (i < hi + 1 - lo) && bit n (lo + i)) := by
  have hb : ∀ m j, bit m j = m.testBit j := by
    intro m j; unfold bit; rw [Nat.testBit_eq_decide_div_mod_eq]
  rw [hb, hb]
  unfold bits
  rw [Nat.testBit_mod_two_pow, Nat.testBit_div_two_pow, Nat.add_comm lo i]

theorem bit_mod (v w i : Nat) : bit (v % 2 ^ w) i = (decide (i < w) && bit v i) := by
  have hb : ∀ m j, bit m j = m.testBit j := by
    intro m j; unfold bit; rw [Nat.testBit_eq_decide_div_mod_eq]
  rw [hb, hb, Nat.testBit_mod_two_pow]

/-- A field reads as what was put into it. -/
theorem bits_setBits_same (n hi lo v : Nat) (h : lo ≤ hi) : bits (setBits n hi lo v) hi lo = v % 2 ^ (hi + 1 - lo) := by
  apply eq_of_bits
  intro i
  rw [bit_bits, bit_setBits _ _ _ _ _ h, bit_mod]
  by_cases hi' : i < hi + 1 - lo
  · have h1 : lo ≤ lo + i ∧ lo + i ≤ hi := by omega
    have h2 : lo + i - lo = i := by omega
    rw [if_pos h1, h2]
  · simp [hi']

/-- A field put into a word leaves a field beside it alone. -/
theorem bits_setBits_other (n hi lo v hi' lo' : Nat) (h : lo ≤ hi) (hd : hi' < lo ∨ hi < lo') :
    bits (setBits n hi lo v) hi' lo' = bits n hi' lo' := by
  apply eq_of_bits
  intro i
  rw [bit_bits, bit_bits, bit_setBits _ _ _ _ _ h]
  by_cases hi : i < hi' + 1 - lo'
  · rw [if_neg (by omega)]
  · simp [hi]

theorem bit_eq_bits (n i : Nat) : bit n i = decide (bits n i i = 1) := by
  unfold bit bits
  have h : i + 1 - i = 1 := by omega
  exact congrArg (fun k => decide (n / 2 ^ i % 2 ^ k = 1)) h.symm

theorem bit_b2n (v : Bool) : bit (b2n v) 0 = v := by cases v <;> rfl

-- Register words -----------------------------------------------------------------------------------------------------------------------------

theorem Bus.reg_lt (b : Bus) (a : Nat) : b.reg a < 2 ^ 32 := (sget (regReset a) b.regs a).isLt

theorem RegFile.wf_sset (l : RegFile) (a : Nat) (v : BitVec 32) (h : RegFile.wf l = true) :
    RegFile.wf (sset (regReset a) l a v) = true :=
  sset_canon (fun a => regReset a) l none a v h (fun _ hj => nomatch hj)

theorem Bus.setReg_regs_wf (b : Bus) (a v : Nat) (h : RegFile.wf b.regs = true) : RegFile.wf (b.setReg a v).regs = true :=
  RegFile.wf_sset b.regs a _ h

/-- What a register word reads as after a write of one word. -/
theorem Bus.reg_setReg (b : Bus) (a a' v : Nat) (h : RegFile.wf b.regs = true) :
    (b.setReg a v).reg a' = if a' = a then v % 2 ^ 32 else b.reg a' := by
  unfold Bus.reg Bus.setReg
  by_cases ha : a' = a
  · subst ha
    rw [if_pos rfl]
    simp only [sget_sset_same (fun a => regReset a) b.regs a' _ h, BitVec.toNat_ofNat]
  · rw [if_neg ha]
    simp only [sget_sset_other (fun a => regReset a) b.regs a a' _ h ha]

theorem Bus.setField_regs_wf (b : Bus) (a hi lo v : Nat) (h : RegFile.wf b.regs = true) :
    RegFile.wf (b.setField a hi lo v).regs = true := Bus.setReg_regs_wf b a _ h

theorem Bus.setFlag_regs_wf (b : Bus) (a i : Nat) (v : Bool) (h : RegFile.wf b.regs = true) :
    RegFile.wf (b.setFlag a i v).regs = true := Bus.setReg_regs_wf b a _ h

theorem Bus.bump_regs_wf (b : Bus) (a n : Nat) (h : RegFile.wf b.regs = true) : RegFile.wf (b.bump a n).regs = true :=
  Bus.setReg_regs_wf b a _ h

theorem Bus.inc_regs_wf (b : Bus) (a : Nat) (h : RegFile.wf b.regs = true) : RegFile.wf (b.inc a).regs = true :=
  Bus.setReg_regs_wf b a _ h

theorem Bus.raise_regs_wf (b : Bus) (a i : Nat) (h : RegFile.wf b.regs = true) : RegFile.wf (b.raise a i).regs = true :=
  Bus.setReg_regs_wf b a _ h

theorem Bus.note_regs_wf (b : Bus) (c st i : Nat) (h : RegFile.wf b.regs = true) : RegFile.wf (b.note c st i).regs = true :=
  Bus.raise_regs_wf _ _ _ (Bus.inc_regs_wf b c h)

/-- A field set: its word holds the old word with the field replaced, every other word is as it was. -/
theorem Bus.reg_setField (b : Bus) (a hi lo v a' : Nat) (h : RegFile.wf b.regs = true) (h1 : lo ≤ hi) (h2 : hi < 32) :
    (b.setField a hi lo v).reg a' = if a' = a then setBits (b.reg a) hi lo v else b.reg a' := by
  unfold Bus.setField
  rw [Bus.reg_setReg _ _ _ _ h]
  by_cases ha : a' = a
  · rw [if_pos ha, if_pos ha, Nat.mod_eq_of_lt (setBits_lt _ _ _ _ 32 (Bus.reg_lt b a) h1 h2)]
  · rw [if_neg ha, if_neg ha]

theorem Bus.reg_setFlag (b : Bus) (a i : Nat) (v : Bool) (a' : Nat) (h : RegFile.wf b.regs = true) (h2 : i < 32) :
    (b.setFlag a i v).reg a' = if a' = a then setBits (b.reg a) i i (b2n v) else b.reg a' :=
  Bus.reg_setField b a i i (b2n v) a' h (Nat.le_refl _) h2

/-- A flag set: it reads as set, and every other bit of every word is as it was. -/
theorem Bus.flag_setFlag (b : Bus) (a i : Nat) (v : Bool) (a' j : Nat) (h : RegFile.wf b.regs = true) (h2 : i < 32) :
    (b.setFlag a i v).flag a' j = if a' = a ∧ j = i then v else b.flag a' j := by
  unfold Bus.flag
  rw [Bus.reg_setFlag b a i v a' h h2]
  by_cases ha : a' = a
  · subst ha
    rw [if_pos rfl, bit_setBits _ _ _ _ _ (Nat.le_refl _)]
    by_cases hj : j = i
    · subst hj
      rw [if_pos ⟨Nat.le_refl _, Nat.le_refl _⟩, if_pos ⟨rfl, rfl⟩, Nat.sub_self, bit_b2n]
    · rw [if_neg (by omega), if_neg (fun hh => hj hh.2)]
  · rw [if_neg ha, if_neg (fun hh => ha hh.1)]

theorem Bus.flag_raise (b : Bus) (a i a' j : Nat) (h : RegFile.wf b.regs = true) (h2 : i < 32) :
    (b.raise a i).flag a' j = if a' = a ∧ j = i then true else b.flag a' j := Bus.flag_setFlag b a i true a' j h h2

theorem Bus.reg_raise (b : Bus) (a i a' : Nat) (h : RegFile.wf b.regs = true) (h2 : i < 32) :
    (b.raise a i).reg a' = if a' = a then setBits (b.reg a) i i 1 else b.reg a' := Bus.reg_setFlag b a i true a' h h2

/-- A counter advanced: saturating, every other word as it was. -/
theorem Bus.reg_bump (b : Bus) (a n a' : Nat) (h : RegFile.wf b.regs = true) :
    (b.bump a n).reg a' = if a' = a then Nat.min (b.reg a + n) 0xFFFFFFFF else b.reg a' := by
  unfold Bus.bump
  rw [Bus.reg_setReg _ _ _ _ h]
  by_cases ha : a' = a
  · rw [if_pos ha, if_pos ha]
    apply Nat.mod_eq_of_lt
    have : Nat.min (b.reg a + n) 0xFFFFFFFF ≤ 0xFFFFFFFF := Nat.min_le_right _ _
    omega
  · rw [if_neg ha, if_neg ha]

theorem Bus.reg_inc (b : Bus) (a a' : Nat) (h : RegFile.wf b.regs = true) :
    (b.inc a).reg a' = if a' = a then Nat.min (b.reg a + 1) 0xFFFFFFFF else b.reg a' := Bus.reg_bump b a 1 a' h

/-- A field set leaves the words elsewhere alone, whatever its place in the word. -/
theorem Bus.reg_setField_other (b : Bus) (a hi lo v a' : Nat) (h : RegFile.wf b.regs = true) (ha : a' ≠ a) :
    (b.setField a hi lo v).reg a' = b.reg a' := by
  unfold Bus.setField; rw [Bus.reg_setReg _ _ _ _ h, if_neg ha]

/-- A field reads as what was put into it. -/
theorem Bus.field_setField_same (b : Bus) (a hi lo v : Nat) (h : RegFile.wf b.regs = true) (h1 : lo ≤ hi) (h2 : hi < 32) :
    (b.setField a hi lo v).field a hi lo = v % 2 ^ (hi + 1 - lo) := by
  unfold Bus.field
  rw [Bus.reg_setField b a hi lo v a h h1 h2, if_pos rfl, bits_setBits_same _ _ _ _ h1]

end Sys2Proof.Machine
end

