-- ==== Sys2Proof/Laws/Lists.lean ====
section
/-! SUPPORT. Laws of association lists, of replacing an element of a list, and of the small updates of the state that commands share. -/

namespace Sys2Proof.Machine

/-- What a key reads as after a key was set. -/
theorem alook_aset {κ α : Type} [DecidableEq κ] (l : List (κ × α)) (k k' : κ) (v : α) :
    alook (aset l k v) k' = if k' = k then some v else alook l k' := by
  induction l with
  | nil => by_cases h : k' = k <;> simp [aset, alook, h, eq_comm] ; exact fun hh => h hh.symm
  | cons e t ih =>
    obtain ⟨j, w⟩ := e
    by_cases hj : j = k
    · subst hj
      by_cases h : k' = j
      · subst h; simp [aset, alook]
      · have : ¬ j = k' := fun hh => h hh.symm
        simp [aset, alook, h, this]
    · by_cases h : j = k'
      · subst h; simp [aset, alook, hj]
      · simp [aset, alook, hj, h, ih]

/-- What a key reads as after a key was taken out. -/
theorem alook_adel {κ α : Type} [DecidableEq κ] (l : List (κ × α)) (k k' : κ) :
    alook (adel l k) k' = if k' = k then none else alook l k' := by
  unfold adel
  induction l with
  | nil => simp [alook]
  | cons e t ih =>
    obtain ⟨j, w⟩ := e
    by_cases hj : j = k
    · subst hj
      rw [List.filter_cons_of_neg (by simp), ih]
      by_cases h : k' = j
      · simp [h]
      · have : ¬ j = k' := fun hh => h hh.symm
        simp [alook, h, this]
    · rw [List.filter_cons_of_pos (by simpa using hj)]
      by_cases h : j = k'
      · subst h; simp [alook, hj]
      · simp only [alook, h, if_false, ih]

theorem modAt_length {α : Type} (f : α → α) (l : List α) (i : Nat) : (modAt f l i).length = l.length := by
  induction l generalizing i with
  | nil => rfl
  | cons x xs ih => cases i <;> simp [modAt, ih]

/-- An element replaced reads as replaced; the others are as they were. -/
theorem modAt_getD {α : Type} (f : α → α) (l : List α) (i j : Nat) (d : α) :
    (modAt f l i).getD j d = if j = i ∧ i < l.length then f (l.getD i d) else l.getD j d := by
  induction l generalizing i j with
  | nil => simp [modAt]
  | cons x xs ih =>
    cases i with
    | zero => cases j <;> simp [modAt]
    | succ i =>
      cases j with
      | zero => simp [modAt]
      | succ j => simpa [modAt] using ih i j

theorem State.at_self (s : State) : s.at s.now = s := by unfold State.at State.now; simp

end Sys2Proof.Machine
end

