-- ==== Sys2Proof/Tests/Slice0.lean ====
section
/-! SUPPORT. Tests: ill-formed commands refused, and for each statement with hypotheses a state and operands that meet them. -/

namespace Sys2Proof

set_option maxRecDepth 8000
set_option Elab.async false

open Machine

namespace Slice0

/-- The machine out of reset, the main dies running, with the register words `l` written. -/
def upWith (l : List (Nat × Nat)) : State :=
  let s := State.reset
  { s with plat := { s.plat with mainHeld := false }, bus := l.foldl (fun b x => b.setReg x.1 x.2) s.bus }

def entry : TaskEntry :=
  { cls := 0, inst := 0, safety := false, strict := false, histLookup := false, histWrite := false, regionFirst := 0, regionCount := 1,
    record := false, shapeSlot := 0, shapeOff := 0, admission := decodeWait 0, plan := [1, 1, 1, 1], loadedMax := [16, 16, 16, 16],
    stepOff := 0, stepCount := 2, done := [], monitorEn := false, monitor := 0, countEn := false, countSlot := 0, countOff := 0 }

def hbmSlot : Region :=
  { base := 0x100000000, size := 0xC00, lstn := 0, sliceRel := false, isLocal := false, remoteFed := false, readOnly := false,
    narrow := false, wide := true, syncEn := false, sync := 0 }

/-- Operand `i`, in slot 0, 32 KiB on from the one before, rows of 256 bytes. -/
def opndWord (i : Nat) : Nat := 2 ^ 59 + i * 0x1000 * 2 ^ 24 + 32

/-- A step of OPCODE `oc` and the three dims, with an EXT after it. -/
def stepBytes (oc d0 d1 d2 : Nat) (ext : Bool := true) : List Byte :=
  leBytes 2 oc ++ leBytes 2 0 ++ leBytes 8 (opndWord 0) ++ leBytes 8 (opndWord 1) ++ leBytes 8 (opndWord 2)
    ++ leBytes 8 (d0 * 2 ^ 48 + d1 * 2 ^ 32 + d2 * 2 ^ 16) ++ zeros 28
    ++ leBytes 2 0x0007 ++ leBytes 2 0 ++ leBytes 8 (opndWord 3) ++ (if ext then leBytes 8 (opndWord 4) ++ leBytes 8 (opndWord 5) else zeros 16) ++ zeros 36

def ctx0 : Ctx := { task := 0, frame := 0, entry := entry, slots := [hbmSlot], dims := [1, 1, 1, 1] }
def frame0 : OpenFrame := { frame := 0, spare := 31 }

/-- The step as the next one of unit `u`'s context 0, every engine enabled. -/
def stepState (u : UnitId) (bs : List Byte) : State :=
  let s := upWith [(rbeB 0, 1), (bseB 0, 1), (gmeB 0, 1), (smeB, 1), (creB 0, 1), (cleB, 1), (engB 0, 1)]
  { s with
    bus := ((s.bus.store 0 bs false).store 0x100000004 [1] false).store 0x100008000 (if 0x30 ≤ (bs.getD 1 0).toNat ∧ fld bs 0 2 ≠ 0x3400 ∧ (bs.getD 1 0).toNat < 0x40 then tab 64 (fun _ => 0xFF) else []) false
    fseq := { s.fseq with openFrames := [frame0], ctxs := [((u, 0), ctx0)] } }

/-- The conditions of `State.stepRuns`, on the state above. -/
def canRun (o : UnitOp) (u : UnitId) (s : State) : List Bool :=
  let s := s.seen u
  match s.live u 0 with
  | none => []
  | some (x, fr) =>
    match fetchStep s.bus x x.step with
    | none => [false]
    | some d =>
      let e := stepEnv u x fr d
      let s1 := s.startTok u 0 x
      let r := o.run e s1
      [waitsOk s.bus x fr d, s.mayIssue u 0, decide (staleClaim s.bus x d = none), o.sel d, o.ready e s, decide (o.pre e s1 = []),
       decide (e.dim 0 ≠ 0), decide (issueFaults e (o.accs e s1) = []), decide (r.codes = []), r.signals]

/-- A step for each of the operations of `stepUnits`, in its order. -/
def someSteps : List (List Byte) := [
  stepBytes 0x2050 1 0 0,
  stepBytes 0x2090 1 0 0,
  stepBytes 0x20D0 1 0 0,
  stepBytes 0x2110 1 0 0,
  stepBytes 0x2150 1 0 0,
  stepBytes 0x2190 1 0 0,
  stepBytes 0x2212 1 0 0,
  stepBytes 0x22B0 1 0 0,
  stepBytes 0x2410 1 0 0,
  stepBytes 0x2450 1 0 0,
  stepBytes 0x2490 1 0 0,
  stepBytes 0x2610 1 0 0,
  stepBytes 0x2810 1 0 0,
  stepBytes 0x2850 1 1 0,
  stepBytes 0x1280 1 1 1 false,
  stepBytes 0x1480 1 1 1 false,
  stepBytes 0x4001 1 1 160,
  stepBytes 0x4002 1 1 160,
  stepBytes 0x4003 1 1 160,
  stepBytes 0x4004 1 1 160,
  stepBytes 0x4005 1 1 160,
  stepBytes 0x4006 1 1 160,
  stepBytes 0x4007 1 1 160,
  stepBytes 0x5001 1 1 0,
  stepBytes 0x5003 1 1 0,
  stepBytes 0x3040 1 1 1,
  stepBytes 0x3080 1 1 1,
  stepBytes 0x30C0 1 0 1,
  stepBytes 0x3200 1 1 1,
  stepBytes 0x3240 1 1 1,
  stepBytes 0x3400 1 1 1,
  stepBytes 0x3440 1 1 1,
  stepBytes 0x7100 1 1 1,
  stepBytes 0x7200 1 257 1,
  stepBytes 0x6001 1 1 0,
  stepBytes 0x6002 1 1 0,
  stepBytes 0x9100 1 1 1,
  stepBytes 0x9200 1 1 1,
  stepBytes 0x9300 1 1 1,
  stepBytes 0x9400 1 1 1,
  stepBytes 0x9500 1 1 1,
  stepBytes 0x9600 1 1 1,
  stepBytes 0x8001 1 0 0,
  stepBytes 0x8002 1 0 0]

/-- The machine out of reset in device state `d`, the main dies running, with the register words `l` written. -/
def inState (d : Dev) (l : List (Nat × Nat) := []) : State := { upWith l with sd := { State.reset.sd with state := d } }

end Slice0

open Slice0

-- Well-formedness --------------------------------------------------------------------------------------------------------------------

theorem test_ill_formed_commands_are_refused :
    [Instr.registerWrite .mgt 0x20000002 0 0, .reg64ReadLower .mgt 0x30000000, .reg64ReadUpper .mgt 1, .reg64WriteUpper .mgt 3 0,
     .reg64WriteLower .mgt 0x1FFFFFFC 0 0, .rcRead .mgt 2 0, .unmappedAccess .mgt 0x20000001 none, .sdWindowWrite .mgt 0x22100000 0,
     .fabricAccess .mgt 0 (.read 0), .fabricAccess .mgt 0xFFFFFFFFFF (.read 2), .hostBarAccess 0 .bar0 0 (.write [] .direct),
     .ethFrameRx 0 [] true 0 true 0 0, .frameWindowOpen (2 ^ 32) 0, .taskAdmit 1024 0, .faultReport 0 1024 0 0 0, .faultReport 0 0 0 0 65536,
     .mirrorCopy 0 [] 0 [] 0, .boxRecord 0 [], .boxRecord (2 ^ 32) (zeros 64), .injectionSweep [0, 0] 0, .sdoDownload 0 [] 0,
     .qmpRead ⟨0, 0, 5170⟩ (zeros 1045) 0, .ethFrameTx 0 0 (some []) 0, .kydRecord 0 0 (zeros 64) true, .hbmTrainingDone [1, 1],
     .kydRead 0 { op := 1, dst := 0, src := 0, tag := 0, addr := 0, payload := zeros 257, vc := 0, cls := false, ack := false, fed := false,
                  poison := false, response := false }].all (fun c => !c.wf) = true := by decide +kernel

theorem test_well_formed_commands_pass :
    [Instr.registerWrite .mgt 0x20000004 0 0, .fabricAccess .mgt 0xFFFFFFFFFE (.read 2), .taskAdmit 1023 0, .boxRecord 0 (zeros 64),
     .kydRecord 0 0 [] true].all (·.wf) = true := by decide +kernel

-- Witnesses ------------------------------------------------------------------------------------------------------------------------------

theorem test_up : (upWith []).up ∧ (upWith []).sdUp ∧ (upWith []).complete := by
  unfold State.up State.sdUp State.complete; decide +kernel

theorem test_outputs_sound_run : ({ inState .run with sd := { (inState .run).sd with safeA := true, safeB := true } }).outputsSound := by
  unfold State.outputsSound; decide +kernel

theorem test_in_form : State.reset.bus.wf = true ∧ State.reset.bus.late = [] ∧ State.reset.complete ∧ step State.reset = .next State.reset.idle := by
  unfold State.complete; exact ⟨by decide +kernel, by decide +kernel, by decide +kernel, rfl⟩

/-- One operation of each family: ADD, SORT, MM, RB_CLEAR, BS_LOOKUP, GATHER_ALIGNED, CR_PROJECT, SM_MERGE, COPY, CL_ACCUM. -/
def sample : List Nat := [0, 12, 14, 16, 23, 25, 32, 34, 36, 42]

theorem test_steps_can_run :
    sample.all (fun i => match (stepUnits 0 0 0 0 0 0 {})[i]?, someSteps[i]? with
      | some (_, o, u), some bs => let l := canRun o u (stepState u bs); l.length = 10 && l.all id
      | _, _ => false) = true := by decide +kernel

/-- A frame period of 50 ms from device time 0 (R136). -/
def sched : List (Nat × Nat) := [(fseqB + 0x0C, 50000)]

theorem test_register_words :
    (upWith []).canIssue .mgt = true ∧ (upWith []).bus.place (camB 0 + 0x10) = .regs
    ∧ ((mappedReg .m4x1 (camB 0 + 0x10)).any fun l => l.row.wide && !l.row.rc && l.block.plain && !(upWith []).openRead l && !l.upper) = true
    ∧ ((mappedReg .m4x1 (camB 0 + 0x14)).any fun l => l.row.wide && l.block.plain && l.upper) = true
    ∧ ((mappedReg .m4x1 (rbeB 0)).any fun l => !l.row.wide && l.block.plain) = true
    ∧ ((mappedReg .m4x1 (fseqB + 0x200)).any fun l => l.row.rc && !l.row.wide) = true
    ∧ mappedReg .m4x1 0x20FFFFFC = none ∧ (upWith []).bus.place 0x20FFFFFC = .regs ∧ 0x20FFFFFC < sdB
    ∧ (upWith []).bus.place sdB = .regs ∧ (upWith []).bus.place (sdB + 0xFFFFC) = .regs := by decide +kernel

theorem test_transactions :
    let b := (upWith []).bus
    b.served 0x09FFFFC0 64 = true ∧ b.place 0x09FFFFC0 = .um ∧ b.served 0x100000000 1 = true ∧ b.place 0x100000000 = .hbm
    ∧ b.place 0x11FFFFFF = .intake ∧ b.served 0x11FFFFFF 1 = true ∧ b.served 0x0A000000 1 = false ∧ isSie .mgt = false
    ∧ (upWith []).canIssue (.pcie 0) = true ∧ (upWith []).barServed .bar2 0x1FFFFFFF 2 = false := by decide +kernel

theorem test_intake :
    let s := upWith sched
    s.hasSie 0 = true ∧ s.bus.flag (sieB 0) 0 = false ∧ (upWith [(sieB 0, 1)]).bus.flag (sieB 0) 0 = true ∧ s.bus.frameOf 0 = some 1
    ∧ s.bus.frameOf 49999999 = some 1 ∧ s.bus.frameOf 50000000 = some 2 ∧ (s.intake.latches.getLast?).map (·.frame) ≠ some 1
    ∧ s.calib.pendingAt = none ∧ s.sd.pendingCause = none ∧ s.kydor.runAt = none ∧ s.intake.waiting = false ∧ s.intake.refWait = none
    ∧ ({ s with intake := { s.intake with clearing0 := true } }).intake.clearing0 = true ∧ s.mgmt.bistRunning = []
    ∧ s.bus.frameOf 1000000 = some 1 ∧ ({ s.calib with pendingAt := some 0 } : Calib).pendingAt = some 0 ∧ 0 + 1000000 ≤ 1000000 := by decide +kernel

/-- SIE0 on, frame 0's values latched with 1 ms slices, its bank clear and released. -/
def closing : State :=
  let s := upWith (sched ++ [(sieB 0, 1)])
  { s with intake := { s.intake with latches := [{ frame := 0, regs := s.bus.regs, edges := 0, sliceNs := 1000000, vtLimit := 1 }] } }

theorem test_poses_commit :
    let s := upWith []
    let b (crc : Nat) := s.bus.setReg (sieB 0 + 0x82C) crc
    crc32c (sub (b 0).poseIn 0 0x2C) ≠ fld (b 0).poseIn 0x2C 4 ∧ (∀ d ∈ [0, 1], ((s.cam d).frames.filter (fun x => x.ended && !x.poseDone)) = [])
    ∧ (let q := upWith [(sieB 0 + 0x814, 0x40000000)]
       let c := crc32c (sub q.bus.poseIn 0 0x2C)
       let y := (q.bus.setReg (sieB 0 + 0x82C) c).poseIn
       crc32c (sub y 0 0x2C) = fld y 0x2C 4
       ∧ ({ tx := sfld y 8 4, ty := sfld y 12 4, tz := sfld y 16 4, qw := sfld y 20 4, qx := sfld y 24 4, qy := sfld y 28 4,
            qz := sfld y 32 4 } : Xform).normOk = true) := by decide +kernel

/-- Sensor port 0 on, its link up. -/
def portOn (l : List (Nat × Nat) := []) : State := upWith ([(ethB 0, 2 ^ 31), (ethB 0 + 4, 2 ^ 30)] ++ l)

theorem test_ports_receive :
    (portOn).bus.portUp 0 = true ∧ (upWith []).bus.portUp 0 = false ∧ udpHead (zeros 14) = none
    ∧ (ethHead (zeros 14)).dst = (portOn).bus.portMac 0 ∧ (ethHead (zeros 14)).dst / 16 ≠ 0x0180C200000 := by decide +kernel

/-- An empty bucket holds no frame. -/
theorem test_a_frame_beyond_its_rate (burst : Nat) : filled 1 burst 0 0 0 < frameCost (zeros 14) := by
  have h : filled 1 burst 0 0 0 ≤ 0 := by simp [filled]
  exact Nat.lt_of_le_of_lt h (by decide)

theorem test_store :
    let s := upWith [(hcB, 2), (hcB + 8, 0x000A0000 + 0x10000)]
    s.bus.flag hcB 1 = true ∧ s.bus.flag (hcB + 4) 1 = false ∧ s.bus.flag (hcB + 4) 0 = false ∧ (upWith [(hcB + 4, 2)]).bus.flag (hcB + 4) 1 = true
    ∧ (upWith []).bus.flag hcB 1 = false := by decide +kernel

theorem test_sync : (upWith []).bus.kind 0 ≠ 1 ∧ (upWith []).bus.kind 16383 ≠ 1 ∧ (upWith [(syncB 0 + 8, 0x100)]).bus.kind 0 = 1 := by
  decide +kernel

theorem test_a_slice_is_closable : ∃ l pose, closing.closable 0 l pose ∧ ({ closing with intake := { closing.intake with waiting := true } }).closable 0 l pose
    ∧ closing.intake.refWait = none ∧ closing.intake.cur.frame % 2 = (0 : Fin 2).val := by
  refine ⟨{ frame := 0, regs := closing.bus.regs, edges := 0, sliceNs := 1000000, vtLimit := 1 },
    closing.poseFor (closeEnv closing.bus { frame := 0, regs := closing.bus.regs, edges := 0, sliceNs := 1000000, vtLimit := 1 } 0).lb
      (2 * closing.bus.windowStart 0 + 1000000) true, ?_⟩
  unfold State.closable
  decide +kernel

/-- A book of one task on station 0's list, with one region. -/
def book0 : Book :=
  { crc := 0, periodMin := 0, periodMax := 0, syncFirst := 0, syncCount := 0, length := 64, tasks := [entry], regions := [hbmSlot], decls := [] }

/-- The book in RUN, frame 0 open, its spare station 31. -/
def running (l : List (Nat × Nat) := []) : State :=
  let s := upWith (sched ++ [(fseqB, 1)] ++ l)
  { s with fseq := { s.fseq with book := some book0, openFrames := [frame0], next := some 1 } }

theorem test_frames_open :
    (running).canOpen 1 0 = true ∧ (running).fseq.next = some 1 ∧ ({ running with fseq := { (running).fseq with spareDone := true } }).canOpen 1 0 = true
    ∧ (running [(fseqB + 0x30, 0x20 + 31)]).canOpen 1 0 = true ∧ (running [(fseqB + 0x30, 0x20 + 31)]).bus.flag (fseqB + 0x30) 5 = true := by
  decide +kernel

theorem test_tasks_are_admitted :
    let s := running
    s.fseq.frameOfParity 0 = some frame0 ∧ s.canAdmit frame0 0 entry = true ∧ physUnit 0 0 31 = some (.stn 0) ∧ entry.countEn = false
    ∧ (((book0.slots entry).map (fun r => r.resolve (.stn 0) 31)).zip (book0.slots entry)).any
        (fun r => r.1.bad s.bus 31 (r.2.isLocal || r.2.sliceRel)) = false
    ∧ entry.record = false ∧ overPlan entry entry.plan = false ∧ zeroShape entry entry.plan = false := by decide +kernel

/-- A control step of OPCODE `oc` as the next of station 0's context 0. -/
def controlState (oc d0 d1 d2 : Nat) (x : Ctx := ctx0) (l : List (Nat × Nat) := []) (sig : Nat := 0) : State :=
  let s := upWith l
  let bs := (leBytes 2 oc ++ leBytes 2 0 ++ leBytes 8 (opndWord 0) ++ zeros 16 ++ leBytes 8 (d0 * 2 ^ 48 + d1 * 2 ^ 32 + d2 * 2 ^ 16)
    ++ zeros 20 ++ leBytes 2 sig ++ zeros 6)
  { s with bus := s.bus.store 0 bs false, fseq := { s.fseq with openFrames := [frame0], ctxs := [((.stn 0, 0), x)] } }

def looping : Ctx := { ctx0 with loops := [{ start := 0, count := 2, ctr := 0 }] }
def looped : Ctx := { ctx0 with loops := [{ start := 0, count := 2, ctr := 1 }] }

/-- The conditions of `State.readyControl` for OPCODE `op`, on a control state. -/
def canControl (op : Nat) (s : State) : Bool :=
  match s.live (.stn 0) 0 with
  | none => false
  | some (x, fr) =>
    match fetchStep s.bus x x.step with
    | none => false
    | some d => waitsOk s.bus x fr d && s.mayIssue (.stn 0) 0 && decide (staleClaim s.bus x d = none) && decide (d.unit = 0 ∧ d.op = op)

theorem test_control_steps_are_ready :
    (canControl 0 (controlState 0 0 0 0) && canControl 1 (controlState 1 2 0 0) && canControl 1 (controlState 1 0 0 0)
      && canControl 2 (controlState 2 0 0 0 looping) && canControl 2 (controlState 2 0 0 0 looped) && canControl 4 (controlState 4 0 0 0 looping)
      && canControl 6 (controlState 6 3 0 0) && canControl 3 (controlState 3 0 0 0 ctx0 [(syncB 0 + 8, 0x200)] 0x8000)
      && canControl 3 (controlState 3 0 0 0 ctx0 [(syncB 0 + 8, 0x200), (syncB 0 + 4, 1)] 0x8000)) = true := by decide +kernel

theorem test_claim_objects :
    (upWith [(syncB 0 + 8, 0x200)]).bus.kind 0 = 2 ∧ (upWith [(syncB 0 + 8, 0x200)]).bus.reached 0 = true
    ∧ (upWith [(syncB 0 + 8, 0x200), (syncB 0 + 4, 1)]).bus.reached 0 = false := by decide +kernel

theorem test_load_dim_passes_its_checks :
    let x : Ctx := { ctx0 with slots := [{ hbmSlot with narrow := true, wide := false }] }
    let s := (controlState 5 0 0 8 x).seen (.stn 0)
    canControl 5 s = true ∧ (match fetchStep s.bus x 0 with
      | none => false
      | some d => decide (issueFaults (stepEnv (.stn 0) x frame0 d) [{ opnd := 0, write := false, narrow := true, ranges := [(0, 4)] }] = [])
          && !(s.bus.fetch ((stepEnv (.stn 0) x frame0 d).base 0) 4).busErr) = true := by decide +kernel

/-- A step whose operands' region is one line is found out of bounds at issue. -/
theorem test_a_step_can_fail_its_checks :
    let s := stepState (.stn 0) (stepBytes 0x2050 1 0 0)
    let x : Ctx := { ctx0 with slots := [{ hbmSlot with size := 1 }] }
    (match fetchStep s.bus x 0 with
      | none => false
      | some d => (opAdd 0 {}).sel d && decide (issueFaults (stepEnv (.stn 0) x frame0 d) ((opAdd 0 {}).accs (stepEnv (.stn 0) x frame0 d) s) ≠ []))
      = true := by decide +kernel

theorem test_step_operands_are_held :
    let s := stepState (.stn 0) (stepBytes 0x2050 1 0 0)
    (∀ i ∈ [0, 1, 2], s.bus.holds (0x100000000 + 0x8000 * i) 256)
    ∧ (match fetchStep s.bus ctx0 0 with
        | none => false
        | some d => decide (vecType d = 2 ∧ bits d.predRow 7 6 = 0 ∧ bits d.predCol 7 6 = 0 ∧ (stepEnv (.stn 0) ctx0 frame0 d).base 2 = 0x100010000))
      = true := by
  unfold Bus.holds; decide +kernel

theorem test_a_table_would_be_overfilled :
    let s := stepState (.rbe 0) (stepBytes 0x4002 2 0 0)
    s.bus.flag (rbeB 0) 0 = true ∧ (match fetchStep s.bus ctx0 0 with
      | none => false
      | some d =>
        let e := stepEnv (.rbe 0) ctx0 frame0 d
        decide (2 ^ ((rbKernel e).tlog - 1) < e.first + e.dim 0 ∧ d.unit = 4 ∧ d.op = 2)) = true ∧ frame0.fault = none := by decide +kernel

theorem test_tasks_complete :
    let x : Ctx := { ctx0 with step := 2 }
    let s := controlState 0 0 0 0 x
    s.ctx (.stn 0) 0 = some x ∧ s.fseq.frame 0 = some frame0 ∧ x.entry.stepCount ≤ x.step ∧ s.fseq.taskCount ≤ frame0.done.length
    ∧ s.fseq.frameOfParity 0 = some frame0 ∧ frame0.abandoned = false ∧ x.stopped = false ∧ x.tags = [] ∧ x.owed = []
    ∧ ({ entry with monitorEn := true } : TaskEntry).monitorEn = true := by decide +kernel

theorem test_faults_are_found :
    let s := controlState 0 0 0 0
    let b := s.bus.store 0x26 [1] false
    ((fetchStep b ctx0 0).map (·.budget)) = some 1 ∧ s.fseq.rollback = false ∧ frame0.abandoned = false ∧ ctx0.step < entry.stepCount
    ∧ ({ s with fseq := { s.fseq with resync := [(0, 0x23)] } }).fseq.resync ≠ [] ∧ (0x20 ≤ 0x23 ∧ 0x23 ≤ (0x23 : Nat)) := by decide +kernel

theorem test_book_checks :
    let k := { book0 with crc := BitVec.ofNat 32 (bookCrc (running).bus 64) }
    bookCrc (running).bus k.length = k.crc.toNat ∧ bookCrc (running).bus book0.length ≠ book0.crc.toNat ∧ (running).bus.flag fseqB 0 = true := by
  decide +kernel

theorem test_spare_tests :
    let s := running
    s.fseq.spareDone = false ∧ s.bus.flag (fseqB + 0x30) 5 = false ∧ s.spareFree = true ∧ s.fseq.windowFrame ≠ s.bus.frameOf 0 := by decide +kernel

theorem test_station_ramps :
    let s := upWith []
    ((s.setStn 31 { s.stn 31 with ramp := .full }).stn 31).ramp = .full ∧ s.bus.field (stnB 31 + 4) 31 16 ≤ 65535 ∧ (s.stn 31).ramp = .off
    ∧ (s.bus.reg (ringB 0 + 0x14) + 2 ^ 32 - (0 : Word).toNat) % 2 ^ 32 ≤ s.bus.ringSlots 0
    ∧ s.bus.ringSlots 0 < (s.bus.reg (ringB 0 + 0x14) + 2 ^ 32 - (1 : Word).toNat) % 2 ^ 32 := by decide +kernel


/-- Camera 0 of front end 0 bound to receiver 0, channel 0: one RAW8 sample a frame, in HBM. -/
def camera : State :=
  upWith (sched ++ [(camB 0, 1), (camB 0 + 0x40, 1), (camAt 0 0, 0x80000000), (camAt 0 0 + 4, 0x2A000000), (camAt 0 0 + 8, 0x10001),
    (camAt 0 0 + 0x14, 1), (camAt 0 0 + 0x1C, 1), (camB 0 + 0x14, 1), (camB 0 + 0x1C, 1)])

theorem test_cameras_start :
    let s := camera
    s.hasCam 0 = true ∧ s.bus.frameOf (0 + s.bus.camLead 0 : Nat) = some 1 ∧ (s.cam 0).latches = [] ∧ (s.cam 0).lastPub = none
    ∧ s.bus.camPhyOn 0 0 = true ∧ s.camAssign 0 0 1 0 = none ∧ s.camBinding 0 0 1 = none ∧ s.camBinding 0 0 0 = some 0
    ∧ (s.camAssign 0 0 0 0).map (fun x => (x.1, x.2.1)) = some (0, 1) ∧ (s.cam 0).active 0 = none ∧ s.bus.flag (camB 0) 0 = true
    ∧ (s.camRegs 0 1).camUsable 0 0 = true
    ∧ s.bus.waitGe ((s.bus.field (camB 0 + 0x20) 29 16 + 1) % 16384) (s.cam 0).published1 = true
    ∧ (∀ o ∈ ((s.camRegs 0 1).camFmt 0 0).blank, s.bus.holds ((s.camRegs 0 1).reg64 (camAt 0 0 + 0x10 + 8) + o) 1) := by
  unfold Bus.holds; decide +kernel

theorem test_camera_lines :
    let x : CamFrame := { k := 0, frame := 1, bank := 1, seq := 0, tcam := 0 }
    let s := camera.setCam 0 { camera.cam 0 with frames := [x] }
    let c := (s.camRegs 0 1).camFmt 0 0
    let base := (s.camRegs 0 1).reg64 (camAt 0 0 + 0x10 + 8)
    s.camBinding 0 0 0 = some 0 ∧ (s.cam 0).active 0 = some x
    ∧ (0x2A : Byte).toNat = c.dt ∧ x.lines < c.h ∧ (linePixels c.dt [5]).length = c.w
    ∧ (∀ o ∈ c.line 0 (linePixels c.dt [5]), s.bus.holds (base + o.1) 1) ∧ ((c.line 0 (linePixels c.dt [5])).map (·.1)).Nodup
    ∧ ({ x with lines := 1 } : CamFrame).lines = c.h := by unfold Bus.holds; decide +kernel

theorem test_cameras_publish :
    let s := camera.setCam 0 { camera.cam 0 with latches := [(1, camera.bus.regs)] }
    (s.cam 0).next = some 1 ∧ s.bus.holds ((s.camRegs 0 1).reg64 (camB 0 + 0x10 + 8)) 0x400 ∧ s.bus.kind (s.bus.field (camB 0 + 0x20) 13 0) ≠ 1
    ∧ s.camWindowEnd 0 1 ≤ 50000000 := by unfold Bus.holds; decide +kernel

def verdict0 : Verdict :=
  { frame := 0, valid := true, reason := 0, cells := 0, missed := 0, unsupported := 0, token := 0, deadline := 20000000 }

/-- Frame 0's batch with its records and a verdict. -/
def batch : Batch := { frame := 0, bank := 0, recordsDone := true, verdict := some verdict0 }

theorem test_batches_commit :
    let s := { upWith [] with select := { batches := [batch] } }
    s.select.batch 0 = some batch ∧ batch.recordsDone = true ∧ batch.committed = false ∧ s.bankFree 0 = true ∧ s.bus.holds (s.bus.batchBase 0) 64 := by
  unfold Bus.holds; decide +kernel

theorem test_rings_take_batches :
    let v : Batch := { batch with committed := true }
    let s := { upWith [(ringB 0 + 8, 0x80000000)] with select := { batches := [v], verdicts := [verdict0] } }
    let data := s.bus.rdN (s.bus.localAddr (s.bus.batchBase 0)) 64
    s.select.batch 0 = some v ∧ v.ring0 = false ∧ s.bus.ringFill 0 < s.bus.ringSlots 0 ∧ s.plat.pcieDown.contains 0 = false
    ∧ (s.bus.reg64 (ringB 0) + 0 + 64 ≤ s.bus.reg64 (ringB 0 + 8)) ∧ data.length = 64 ∧ s.mayLeave 0 data = true
    ∧ (upWith [(ringB 0 + 0x14, 8)]).bus.ringSlots 0 ≤ (upWith [(ringB 0 + 0x14, 8)]).bus.ringFill 0
    ∧ ({ upWith [(guardAt 0 0, 1)] with select := { batches := [v] } }).mayLeave 0 data = false ∧ s.inSweep = false := by decide +kernel

/-- DMA channel 0 with a transfer of one 8-byte row in HBM, its engine on. -/
def channel (l : List (Nat × Nat) := []) : State :=
  upWith ([(engB 0, 1), (chB 0 + 4, 1), (chB 0 + 0xC, 1), (chB 0 + 0x18, 8), (chB 0 + 0x1C, 1)] ++ l)

theorem test_channels :
    let s := channel
    s.bus.booked 0 = false ∧ s.bus.chState 0 = 0 ∧ s.bus.startBad 0 = false ∧ s.bus.flag (chB 0 + 0x3C) 1 = false
    ∧ s.bus.field (chB 0 + 0x1C) 16 0 ≠ 0 ∧ s.bus.field (chB 0 + 0x18) 24 0 ≠ 0 ∧ (channel [(engB 0 + 8, 1)]).bus.booked 0 = true
    ∧ (channel [(chB 0 + 0x40, 3)]).bus.chState 0 = 3 ∧ (channel [(chB 0 + 0x40, 5)]).bus.chState 0 = 5 ∧ (s.ch 0).buf = [] ∧ (s.ch 0).fail = none
    ∧ (channel [(chB 0 + 0x40, 2)]).bus.chState 0 = 2 ∧ s.fill 0 ≤ (s.bus.field (chB 0 + 0x30) 15 0 : Int)
    ∧ (channel [(chB 0 + 0x40, 1), (chB 0 + 0x58, 1)]).bus.lapDone 0 = true ∧ (channel [(chB 0 + 0x40, 1), (chB 0 + 0x58, 1)]).bus.chCirc 0 = false
    ∧ (s.ch 0).fencing = false ∧ s.chTags 0 = []
    ∧ ((s.setCh 0 { s.ch 0 with fencing := true }).ch 0).fencing = true
    ∧ (let w := { (s.setCh 0 { s.ch 0 with fencing := true, fence := [5] }) with kydor := { s.kydor with tags := [(5, (0, .write 0 8 (some 0)))] } }
       (w.chTags 0).map (·.1) = [5] ∧ (w.ch 0).fence = [5] ∧ (w.ch 0).fencing = true) := by decide +kernel

theorem test_lines_are_copied :
    let s := channel [(chB 0 + 0x40, 1)]
    s.bus.flag (engB 0) 0 = true ∧ s.bus.chState 0 = 1 ∧ s.bus.field (chB 0 + 0x2C) 31 23 = 0 ∧ s.bus.flag (chB 0 + 0x34) 31 = false
    ∧ s.bus.reg (chB 0 + 0x58) < s.bus.field (chB 0 + 0x1C) 16 0 ∧ 0 < Nat.min 64 (s.bus.field (chB 0 + 0x18) 24 0 - s.bus.reg (chB 0 + 0x5C))
    ∧ s.bus.holds ((s.bus.srcRow 0 0 + 0) % 2 ^ 64) 8 ∧ s.bus.holds ((s.bus.dstRow 0 0 + 0) % 2 ^ 64) 8 := by unfold Bus.holds; decide +kernel

theorem test_updates_are_submitted :
    let s := inState .config
    s.bus.calBusy = false ∧ s.submitCode ≠ 0 ∧ (upWith [(cleB + 4, 1)]).bus.calBusy = true ∧ (upWith [(cleB + 4, 1)]).bus.flag (cleB + 4) 0 = true
    ∧ (upWith [(cleB + 4, 2)]).bus.flag (cleB + 4) 1 = true ∧ ({ s with calib := { s.calib with writing := true } }).calib.writing = true := by
  decide +kernel

/-- A staged update with no entry, sequence number 1, and its CRC. -/
theorem test_an_update_passes_its_checks :
    let s := inState .config [(cleB + 0x1000, 1)]
    let t := inState .config [(cleB + 0x1000, 1), (cleB + 0x101C, crc32c (sub s.bus.stage 0 0x1C ++ zeros 4 ++ s.bus.stage.drop 0x20))]
    t.submitCode = 0 := by decide +kernel

theorem test_time_steps :
    (inState .config).stepOk = true ∧ (inState .run).stepOk = false ∧ (upWith []).net.held = none
    ∧ (upWith [(timeB 0 + 0x18, 0)]).bus.fromMaster 0 0 = true ∧ (upWith [(timeB 0 + 0x18, 16)]).bus.fromMaster 0 0 = false
    ∧ (upWith [(timeB 0, 1)]).bus.flag (timeB 0) 0 ≠ false
    ∧ ({ upWith [] with net := { (upWith []).net with servo := .locked } }).net.lastMeas + ((upWith []).bus.field (timeB 0 + 0x2C) 15 0 * 1000000 : Nat)
        ≤ (((upWith []).bus.field (timeB 0 + 0x2C) 15 0 * 1000000 : Nat) : Int)
    ∧ (inState .run).canTrip false = true ∧ (inState .run).sd.latched = false := by decide +kernel

theorem test_gates :
    let s := upWith [(gateB 0 + 0x10, 0x40000000)]
    (upWith []).bus.flag (gateB 15 + 0x10) 30 = false ∧ s.bus.flag (gateB 0 + 0x10) 30 = true
    ∧ ({ (upWith []).net.port 0 with pend := some (0, {}) } : Port).pend = some (0, {}) := by decide +kernel

theorem test_ports_send :
    let f : QFrame := { bytes := zeros 64, origin := .forwarded 0 }
    let s := portOn
    let t := s.setPort 0 { s.net.port 0 with queues := [(7, f)] }
    (t.net.port 0).head 7 = some f ∧ t.neverSent 0 7 0 f = none ∧ (t.net.port 0).busyUntil ≤ 0 ∧ t.canStart 0 7 0 f = true ∧ ptpEvent f.bytes = none
    ∧ (let u := { upWith [] with net := t.net }; u.neverSent 0 7 0 f = some 0x10C) := by decide +kernel

/-- A frame with one UDP datagram to port 1 without a payload, from 0.0.0.0. -/
def datagram : List Byte :=
  zeros 12 ++ [8, 0, 0x45] ++ zeros 8 ++ [17] ++ zeros 10 ++ zeros 2 ++ [0, 1, 0, 8] ++ zeros 2

/-- Checker sensor 0 on port 0, its template absent. -/
def checking (d : Dev) (frames : List CheckFrame := []) : State :=
  let s := inState d sched
  { s with mgmt := { s.mgmt with safe := [(0x730001, [1])] }, sd := { s.sd with frames := frames } }

theorem test_copies_reach_the_checker :
    (udpHead datagram).map (fun u => (u.srcIp, u.dstPort)) = some (0, 1) ∧ (checking .run).chkFrame 0 = some 1
    ∧ (checking .run).copySensors 0 0 1 = [0] ∧ ((checking .run).chkTmpl 0).packet false ((checking .run).chkAngle 0) [] 0 = none
    ∧ ((checking .run).sd.frame 1).closed = false ∧ 0 < (checking .run).closeAt 1 ∧ (checking .run).closeAt 1 ≤ 50500000
    ∧ ((checking .run [{ frame := 1, closed := true }]).sd.frame 1).closed = true ∧ (checking .run).isWorker = false
    ∧ ((checking .run).sd.frame 1).issued = false ∧ boxCrcOk (zeros 64) = false ∧ 0 < (checking .run).chkDeadline 1
    ∧ boxCrcOk (zeros 62 ++ leBytes 2 (crc16 (zeros 62))) = true := by decide +kernel

theorem test_verdicts_are_due :
    let s := checking .run [{ frame := 1, closed := true, ready := true, ended := true }]
    let c := s.sd.frame 1
    c.ready = true ∧ c.ended = true ∧ c.issued = false ∧ 0 < s.chkDeadline 1 ∧ s.owesVerdict 1 = true ∧ c.unfit = none ∧ s.bus.topo.size ≤ 1
    ∧ s.chkDeadline 1 ≤ 70000000 ∧ s.inSweep = false := by decide +kernel

theorem test_a_run_state_can_trip : (inState .run).trippable ∧ 20000 < (20001 : Nat) := by unfold State.trippable State.sdUp; decide +kernel

theorem test_pulses_and_messages_are_due :
    let s := { inState .run with sd := { (inState .run).sd with safeA := true, safeB := true } }
    let t := { s with sd := { s.sd with pulseA := some 0 } }
    s.pulseADue 0 = true ∧ s.pulseBDue 0 = false ∧ t.pulseBDue 5000000 = true ∧ t.pulseADue 9999999 = false ∧ s.cyclicOn = true
    ∧ s.sd.lastCyclic = none := by decide +kernel

theorem test_sweeps_are_awaited :
    let s := { inState .config with sd := { (inState .config).sd with arming := some (.can 0), sweeping := true } }
    let w := { running with sd := { (inState .config).sd with arming := some (.can 0) } }
    let u := { inState .selftest with plat := { (upWith []).plat with bootStep := 9 } }
    s.sd.arming = some (.can 0) ∧ s.sd.sweeping = true ∧ s.sd.latched = false ∧ u.plat.bootStep = 9 ∧ u.mgmt.winner = none
    ∧ s.plat.bootStep ≠ 9 ∧ (∀ r ∈ s.sweepRows [], r.2 = true) ∧ (∀ r ∈ u.sweepRows [], r.2 = true) ∧ u.sd.sweepTrip = false
    ∧ s.inSweep = true ∧ u.inSweep = true ∧ u.sd.state ≠ .off ∧ ({ u.sd with sweepTrip := true } : Sd).sweepTrip = true
    ∧ w.sd.sweeping = false ∧ w.fseq.openFrames ≠ [] ∧ w.sd.armAt + 200000000 ≤ 200000000 := by decide +kernel

/-- Monitor 0 watches: EXEC_MIN 10 ns, EXEC_MAX 100 ns, START_LATEST t_ref. -/
def monitored (m : List MonRec) : State :=
  let s := inState .run sched
  { s with mgmt := { s.mgmt with safe := [(0x740001, leBytes 4 10 ++ leBytes 4 100 ++ leBytes 4 0 ++ leBytes 4 1)] }, sd := { s.sd with mons := m } }

theorem test_monitors_watch :
    let g := (monitored []).frame16 1 0
    let run := monitored [{ mon := 0, frame := g, start := some 0 }]
    g = 1 ∧ (monitored []).watches 0 g = true ∧ ((monitored []).sd.mon 0 g).start = none ∧ (run.sd.mon 0 g).start = some 0
    ∧ ((monitored []).sd.mon 0 g).restarted = false ∧ (run.sd.mon 0 g).ended = false ∧ (run.sd.mon 0 g).longSeen = false
    ∧ ((monitored []).monitor 0).max = 100 ∧ ((monitored []).monitor 0).latest = some 0 ∧ ((monitored []).chkTref g : Int) + 0 ≤ 50000000
    ∧ (upWith []).watches 0 1 = false := by decide +kernel

theorem test_die_faults :
    let s := inState .run sched
    let t := { s with sd := { s.sd with schedule := some (0, 50000000), safeCrc := some 0 } }
    t.trippable ∧ t.sd.schedule ≠ none ∧ 1 ≠ t.chkTref 1 ∧ s.sd.schedule = none
    ∧ t.sd.stationPass.getD 31 0 + 32 * (t.bus.dtiNs + t.bus.tf) < 10 ^ 15 := by
  unfold State.trippable State.sdUp; decide +kernel

theorem test_commands_are_free :
    let free (s : State) : Bool := s.pathOk (.can 0) && s.sd.arming.isNone
    let a := inState .armed [(fseqB + 4, 1), (timeB 0 + 4, 2)]
    free (inState .config) = true ∧ free (inState .commission) = true ∧ free a = true ∧ a.isWorker = false ∧ a.bus.flag (fseqB + 4) 0 = true
    ∧ a.bus.field (timeB 0 + 4) 1 0 = 2 ∧ a.bus.topo.size ≤ 1 ∧ free (inState .run) = true ∧ free (inState .safe) = true
    ∧ (inState .safe).sd.persists = [] ∧ (inState .safe).mgmt.winner = none ∧ (inState .run).pathOk .qmp = false
    ∧ (inState .safe).commandCode 1 (.can 0) ≠ 0 ∧ (inState .config).sd.bookValid = false ∧ a.outputsSound := by
  unfold State.outputsSound; decide +kernel

theorem test_copies_and_sets :
    let s := inState .config
    s.bus.calBusy = false ∧ crossCheck s.bus.variant s.mgmt.merged = 0 ∧ s.mgmt.pendingAt + 60000000000 ≤ 60000000000 ∧ imageAccepted false 0 [] = false
    ∧ (let m := zeros 4 ++ leBytes 4 (crc32c (zeros 4)); 4 < m.length ∧ crc32c (m.take (m.length - 4)) = leNat (m.drop (m.length - 4))) := by
  decide +kernel

theorem test_entries_are_served :
    let s := inState .config
    (safeKind 0x701001).isSome = true ∧ (odRow .m4x1 0x701001).map (·.1) = some .safe ∧ s.safeWrite 0x701001 [1] = 0
    ∧ (s.odStore 0x7010 1 [1, 2] 0).1 ≠ 0 ∧ (s.odRead 0x7010 1).1 = 0 ∧ 0 < (s.odRead 0x7010 1).2.length ∧ (s.odRead 0x7010 1).2.length ≤ 4
    ∧ (s.odRead 0x0001 1).1 ≠ 0 ∧ 4 < (s.odRead 0x7300 3).2.length ∧ s.mgmt.sdo 0 = none := by decide +kernel

/-- SDO transfers: the next segment in time (0 to 1 s after the last frame), then too late for it, a download and an upload. -/
theorem test_segments_in_time_and_late :
    let x : SdoXfer := { index := 0x7300, sub := 3, down := true, data := [], size := 128, last := 5 }
    let y : SdoXfer := { x with down := false, data := zeros 128 }
    let s (z : SdoXfer) : State := { inState .config with mgmt := { (inState .config).mgmt with sdo0 := some z } }
    (s x).mgmt.sdo 0 = some x ∧ (s y).mgmt.sdo 0 = some y ∧ 1000000005 ≤ x.last + 1000000000 ∧ x.last + 1000000000 < 1000000006
    ∧ 7 < y.data.length ∧ (s x).now ≤ x.last + 1000000000 ∧ (s x).sdUp := by
  unfold State.sdUp; decide +kernel

/-- A QMP READ of 7010:01 with its CRC. -/
def qmpRead : List Byte :=
  let m := leBytes 2 0x4D51 ++ [1, 1] ++ leBytes 2 7 ++ leBytes 2 0x7010 ++ [1, 0] ++ leBytes 2 4 ++ leBytes 4 0
  m ++ leBytes 4 (crc32c m)

theorem test_qmp_messages :
    qmpGood qmpRead true = true ∧ qmpGood [] true = false ∧ (inState .config).odNat 0x111003 = 0 ∧ (inState .config).odNat 0x111002 = 5170 ∧ fld qmpRead 3 1 = 1
    ∧ qmpGood (upWith []).bus.mbxRequest false = false ∧ (upWith [(pcieB + 0x104, 2 ^ 30)]).bus.flag (pcieB + 0x104) 30 = true := by decide +kernel

/-- A system of two devices in a ring, this one device `own`, its port 0 UP. -/
def system (own : Nat) (d : Dev := .run) (l : List (Nat × Nat) := []) : State :=
  let s := inState d (sched ++ [(kydB 0 + 4, 2)] ++ l)
  { s with bus := { s.bus with topo := { size := 2, own := own, kind := 1, xs := 2, ys := 1 } } }

def packet (op : Byte) (dst src : Fin 32) (payload : List Byte) : KydPkt :=
  { dst := dst, src := src, vc := 0, cls := false, response := false, op := op, tag := 5, addr := 0x20, fed := false, ack := false, poison := false,
    payload := payload }

theorem test_packets_reach_ports :
    let s := system 0
    s.portUp 0 = true ∧ (s.bus.topo.hop 1).isSome = true ∧ s.bus.reach 1 = true ∧ s.portUp 1 = false ∧ alook s.kydor.tags 5 = none
    ∧ (packet 1 0 1 (leBytes 4 64)).payload.length + 0x20 ≤ 0x0A000000 ∧ s.bus.inFed 0x20 4 = false ∧ (system 0 .run [(kydB 1 + 4, 2)]).portUp 1 = true
    ∧ qmpGood qmpRead true = true ∧ ({ s with kydor := { s.kydor with tags := [(5, (0, .read 0 4))] } }).kydor.tags ≠ []
    ∧ s.bus.place (syncB 0 + 0xC) = .regs ∧ s.bus.kind 0 ≠ 1 := by decide +kernel

theorem test_a_fed_range_takes_a_write :
    (system 0 .run [(umUnit 0 + 0x8018, 1), (umUnit 0 + 0x801C, 0x80000010)]).bus.inFed 0x20 4 = true := by decide +kernel

theorem test_managers_and_workers :
    (system 1).isWorker = true ∧ (system 0).isManager = true ∧ (system 0).isWorker = false ∧ (system 1).isManager = false
    ∧ (system 1).invalidTrips true = false ∧ boxCrcOk (zeros 62 ++ leBytes 2 (crc16 (zeros 62))) = true ∧ ((system 1).sd.frame 1).issued = false
    ∧ (system 1).now < (system 1).chkDeadline 1 ∧ (system 0).kydor.startReady = [] ∧ (system 0).fseq.rollback = false ∧ (system 0).trippable
    ∧ (1 : Fin 32).val < (system 0).bus.topo.size ∧ alook (system 0).kydor.locals (1, 1) = none ∧ (system 0).chkDeadline 1 ≤ 70000000 := by
  unfold State.trippable State.sdUp; decide +kernel

theorem test_links :
    (system 0).hasPort 1 = true ∧ (system 0).bus.field (kydB 0 + 4) 1 0 = 2 ∧ (system 0 .config [(kydB 1 + 4, 1)]).bus.field (kydB 1 + 4) 1 0 = 1
    ∧ (system 0).bus.field (kydB 1 + 4) 1 0 ≠ 2 ∧ (inState .config).sd.state ≠ .armed ∧ (system 0).sd.state = .run
    ∧ alook ({ (system 0).kydor with replays := [(0, (3, 7))] } : Kydor).replays 0 = some (3, 7) := by decide +kernel

theorem test_platform :
    let s := { inState .run with plat := { (upWith []).plat with pllOn := true } }
    let b := { State.reset with plat := { State.reset.plat with bootStep := 4, pllOn := true, mainPg := true } }
    s.plat.pllOn = true ∧ (upWith []).plat.pllOn = false ∧ clockPresent .m4x1 6 = true ∧ clockPresent .m4x1 7 = false ∧ s.canTrip true = true
    ∧ s.sd.latched = false ∧ s.sd.persists = [] ∧ b.sd.state = .boot ∧ 4 ≤ b.plat.bootStep ∧ b.plat.bootStopped = false ∧ b.booting = true
    ∧ b.plat.mainPg = true ∧ b.bus.flag pwrB 0 = false ∧ State.reset.mgmt.bootSlot = some 0 ∧ State.reset.mgmt.bistRunning = []
    ∧ State.reset.plat.mainPg = false ∧ State.reset.plat.bootStep ≤ 4 := by decide +kernel

theorem test_a_clock_off_range : 20000 < (20001 : Int).natAbs ∧ 20000 < (-20001 : Int).natAbs ∧ (20000 : Int).natAbs ≤ 20000 := by decide

theorem test_power_and_temperature :
    let s := inState .config
    s.calWritable = true ∧ 80 ≤ (80 : BitVec 16).toNat ∧ (80 : BitVec 16).toNat ≤ s.bus.variant.powerLimit ∧ (inState .run).calWritable = false
    ∧ s.plat.pendLimit = none ∧ 10 * s.limitNow < (65535 : BitVec 16).toNat ∧ 1 < s.bus.np ∧ s.plat.riseSince = none
    ∧ 840 ≤ (840 : BitVec 16).toInt ∧ ¬(840 ≤ (839 : BitVec 16).toInt) ∧ s.plat.hbmHot = [] ∧ (823 : BitVec 16).toInt < 824
    ∧ 3 < s.bus.variant.stacks ∧ s.bus.variant.stacks ≤ 4 := by decide +kernel

theorem test_tests_of_units :
    let s := inState .config
    s.calWritable = true ∧ s.bus.flag fseqB 0 = false ∧ s.fseq.openFrames = [] ∧ s.mgmt.bistRunning = [] ∧ s.plat.mainHeld = false
    ∧ s.bistPassed 0 { failing := 0, lbist := 0, mbist := 0, duration := 0 } = true
    ∧ s.bistPassed 0 { failing := 0, lbist := 1, mbist := 0, duration := 0 } = false ∧ bistBad .m4x1 1 = false ∧ bistBad .m4x1 0x4000 = true ∧ (inState .run).calWritable = false
    ∧ ({ s.mgmt with bistRunning := [0] } : Mgmt).bistRunning.contains (0 : Fin 14).val = true
    ∧ ({ s with plat := { s.plat with tapEnabled := true } }).plat.tapEnabled = true ∧ s.bus.variant.isX2 = false := by decide +kernel

theorem test_start_up_tests :
    let s := { inState .selftest with plat := { (upWith []).plat with bootStep := 8 } }
    let all (w : BitVec 64) : List (Fin 14 × BistResult) :=
      [0, 1, 2, 3, 4, 5, 8, 9, 10, 11].map (fun u => (u, { failing := 0, lbist := 0, mbist := w, duration := 0 }))
    s.plat.bootStep = 8 ∧ s.bistComplete (all 0) = true ∧ s.bistPasses (all 0) = true ∧ s.bistPasses (all 1) = false := by decide +kernel

theorem fmul_zero (x : Nat) : fmul fmt64 0 x = 0 ∨ fmul fmt64 0 x = 2 ^ 63 ∨ fmul fmt64 0 x = fmt64.nan := by
  have h0 : fval fmt64 0 = .fin false 0 fmt64.qmin := by decide +kernel
  rcases h : fval fmt64 x with _ | b | ⟨b, n, g⟩
  · simp [fmul, h0, h, FV.mul, fround]
  · simp [fmul, h0, h, FV.mul, fround]
  · have hs : fmt64.sgn true = 2 ^ 63 ∧ fmt64.sgn false = 0 := by decide
    cases b <;> simp [fmul, h0, h, FV.mul, fround, froundM, hs]

/-- The machine in CONFIG with a valid book of CRC 0 and a CYCLE_TIME of 1. -/
def toArm : State :=
  let s := inState .config sched
  { s with mgmt := { s.mgmt with safe := [(0x704002, [1, 0])] }, sd := { s.sd with bookValid := true } }

/-- With no sensor D_MAX is 0, so the margin meets its floor whatever the sine's last bit is. -/
theorem test_may_arm : toArm.armOk = true ∧ toArm.pathOk (.can 0) = true ∧ toArm.sd.arming = none ∧ toArm.sd.state = .config := by
  have hf : toArm.marginFloor ≤ toArm.safeNat 0x702001 := by
    have hd : toArm.dMax = 0 := by decide +kernel
    unfold State.marginFloor
    simp only [hd]
    rcases fmul_zero (fmul fmt64 (fofInt fmt64 2) (ftrig fmt64 true (fdiv fmt64 (fmul fmt64 (fofInt fmt64 (toArm.safeNat 0x510003))
      0x400921FB54442D18) (fofInt fmt64 360000)))) with h | h | h <;> rw [h] <;> decide +kernel
  refine ⟨?_, by decide +kernel, by decide +kernel, by decide +kernel⟩
  unfold State.armOk
  simp only [hf, decide_true, Bool.and_true]
  decide +kernel

theorem imageRead_length (s : State) (m : Image) : (s.imageRead m).length = 4 * (m.len / 4) := by
  have h : ∀ l : List Nat, ((l.map (fun i => match mappedReg s.bus.variant (m.base + 4 * i) with
      | some l => leBytes 4 (s.readValue l (m.base + 4 * i))
      | none => zeros 4)).flatten).length = 4 * l.length := by
    intro l
    induction l with
    | nil => rfl
    | cons i l ih =>
      simp only [List.map_cons, List.flatten_cons, List.length_append, List.length_cons, ih]
      split <;> simp [leBytes, zeros] <;> omega
  exact (h _).trans (by simp)

/-- The bytes that entry `k`'s record takes in a copy. -/
def recLen (s : State) (k : Nat) : Nat :=
  8 + roundUp (match safeKind k with
    | some _ => (safeValue s.mgmt.safe k).length
    | none => match (if k % 256 = 0 then imageOf s.bus.variant (k / 256) else none) with
      | some m => 4 * (m.len / 4)
      | none => (s.odOwn k).length) 4

theorem recordsLength_copyRecords (s : State) : recordsLength s.copyRecords = lsum ((copyKeys s.bus.variant).map (recLen s)) := by
  unfold recordsLength State.copyRecords
  rw [List.map_map]
  congr 1
  apply List.map_congr_left
  intro k _
  simp only [Function.comp, recLen, State.odValue]
  rcases safeKind k with _ | _
  · rcases (if k % 256 = 0 then imageOf s.bus.variant (k / 256) else none) with _ | m
    · rfl
    · simp only [imageRead_length]
  · rfl

theorem test_a_copy_fits :
    let s := inState .config
    s.copyFits = true ∧ ({ s with bus := (s.bus.setFlag (cleB + 4) 0 true).inc (cleB + 0x114) } : State).copyFits = true := by
  simp only [State.copyFits, recordsLength_copyRecords]
  decide +kernel

theorem test_every_set_has_its_crc (l : List (Nat × List Byte)) : ∃ crc : Word, crc.toNat = safeCrcOf l := by
  have h : safeCrcOf l < 2 ^ 32 := crc32c_lt _
  exact ⟨BitVec.ofNat 32 (safeCrcOf l), by rw [BitVec.toNat_ofNat]; exact Nat.mod_eq_of_lt h⟩

end Sys2Proof
end

section
/-! SUPPORT. Accesses from outside a step: what one fabric transaction does at each place of the address map, and the statement about
fabric transactions and host requests. -/

namespace Sys2Proof.Machine

-- One line ----------------------------------------------------------------------------------------------------------------------------------

theorem lines_of_none (f a : Nat) : lines f a 0 = [] := by cases f <;> rfl

/-- R21: an access that stays in one line is one transaction. -/
theorem lines_of_inLine (f a n : Nat) (h : inLine a n) : lines (f + 1) a n = [(a, n)] := by
  obtain ⟨hpos, hfit⟩ := h
  obtain ⟨m, rfl⟩ : ∃ m, n = m + 1 := ⟨n - 1, by omega⟩
  have hk : Nat.min (m + 1) (64 - a % 64) = m + 1 := Nat.min_eq_left (by omega)
  simp only [lines, hk, Nat.sub_self, lines_of_none]

/-- R24: the local address has the same place in its line. -/
theorem Bus.inLine_localAddr (b : Bus) (a n : Nat) (h : inLine a n) : inLine (b.localAddr a) n := by
  have hmod : b.localAddr a % 64 = a % 64 := by
    unfold Bus.localAddr
    split <;> omega
  unfold inLine at h ⊢
  rwa [hmod]

-- The history cache's counters --------------------------------------------------------------------------------------------------------------

/-- R85: one line of HBM accessed is one hit or one miss. -/
theorem Bus.hcAccess_of_inLine (b : Bus) (a n : Nat) (h : inLine a n) :
    b.hcAccess a n = { b with free := b.free + 1 }.inc
      (if Config.hcHit (16 - b.hcWays) (a / 128) b.free = true then hcB + 0x400 else hcB + 0x404) := by
  obtain ⟨hpos, hfit⟩ := h
  have hone : (a + n - 1) / 128 + 1 - a / 128 = 1 := by omega
  simp only [Bus.hcAccess, hone, List.range_one, List.foldl_cons, List.foldl_nil, Nat.add_zero]

/-- R85: a state whose register words are those after one line's access has counted it once. -/
theorem cacheCounted_of_regs_eq (s t : State) (b : Bus) (a n : Nat) (hw : RegFile.wf s.bus.regs = true) (hl : inLine a n)
    (hb : b.regs = s.bus.regs) (ht : t.bus.regs = (b.hcAccess a n).regs) : CacheCounted s t := by
  rw [Bus.hcAccess_of_inLine b a n hl] at ht
  generalize hc : (if Config.hcHit (16 - b.hcWays) (a / 128) b.free = true then hcB + 0x400 else hcB + 0x404) = c at ht
  have hreg : ∀ x, t.bus.reg x = if x = c then Nat.min (s.bus.reg c + 1) 0xFFFFFFFF else s.bus.reg x := by
    intro x
    have hs : ∀ y, b.reg y = s.bus.reg y := fun y => by unfold Bus.reg; rw [hb]
    have hinc := Bus.reg_inc { b with free := b.free + 1 } c x (by rw [hb]; exact hw)
    have htx : t.bus.reg x = ({ b with free := b.free + 1 }.inc c).reg x := by unfold Bus.reg; rw [ht]
    rw [htx, hinc, ← hs c, ← hs x]
    rfl
  have hmem : c = hcB + 0x400 ∨ c = hcB + 0x404 := by
    rw [← hc]
    split
    · exact .inl rfl
    · exact .inr rfl
  refine ⟨?_, ?_⟩
  · rcases hmem with rfl | rfl
    · exact .inl ⟨by rw [Counted, hreg, if_pos rfl], by rw [hreg, if_neg (by decide)]⟩
    · exact .inr ⟨by rw [Counted, hreg, if_pos rfl], by rw [hreg, if_neg (by decide)]⟩
  · intro x hx
    simp only [List.mem_cons, List.not_mem_nil, or_false, not_or] at hx
    obtain ⟨hhit, hmiss⟩ := hx
    rw [hreg, if_neg]
    rcases hmem with rfl | rfl
    · exact hhit
    · exact hmiss

-- Stored bytes ------------------------------------------------------------------------------------------------------------------------------

theorem Bus.rdN_store (b : Bus) (a : Nat) (bs : List Byte) (bad : Bool) (h : Mem.wf b.mem = true) :
    (b.store a bs bad).rdN a bs.length = bs := Mem.rdN_wrN bs b.mem a h

theorem Bus.rd_store_out (b : Bus) (a : Nat) (bs : List Byte) (bad : Bool) (x : Nat) (h : Mem.wf b.mem = true)
    (hx : x < a ∨ a + bs.length ≤ x) : (b.store a bs bad).rd x = b.rd x := Mem.rd_wrN_out bs b.mem a x h hx

-- What a transaction does -------------------------------------------------------------------------------------------------------------------

/-- R21, R120: an access at `a` has been refused: one bus error counted, its requester told, and nothing else changed. -/
def AccessRefused (s t : State) (a : Nat) : Prop :=
  t.bus.reg (fabB + 0x110) = Nat.min (s.bus.reg (fabB + 0x110) + 1) 0xFFFFFFFF ∧ t.bus.out = .busError a :: s.bus.out
  ∧ OnlyRegsOut s t [fabB + 0x110]

theorem State.accessRefused_refuseAccess (s : State) (a : Nat) (hw : RegFile.wf s.bus.regs = true) :
    AccessRefused s (s.refuseAccess a) a := by
  have hreg : ∀ x, (s.refuseAccess a).bus.reg x
      = if x = fabB + 0x110 then Nat.min (s.bus.reg (fabB + 0x110) + 1) 0xFFFFFFFF else s.bus.reg x :=
    fun x => Bus.reg_inc s.bus (fabB + 0x110) x hw
  refine ⟨by rw [hreg, if_pos rfl], rfl, rfl, ?_⟩
  intro x hx
  rw [hreg, if_neg (by simpa using hx)]

theorem State.readTx_unserved (s : State) (r : Requester) (a n : Nat) (h : s.bus.served a n = false) :
    s.readTx r a n = s.refuseAccess a := if_pos h

theorem State.readTx_memory (s : State) (r : Requester) (a n : Nat) (h : s.bus.served a n = true)
    (hp : s.bus.place a = .um ∨ s.bus.place a = .intake) :
    s.readTx r a n = s.emit (.memData a (s.bus.rdN (s.bus.localAddr a) n) (s.bus.poisoned (s.bus.localAddr a) n)) := by
  rcases hp with hp | hp <;> simp [State.readTx, h, hp]

theorem State.readTx_hbm (s : State) (r : Requester) (a n : Nat) (h : s.bus.served a n = true) (hp : s.bus.place a = .hbm) :
    s.readTx r a n = (s.onBus (·.hcAccess (s.bus.localAddr a) n)).emit
      (.memData a (s.bus.rdN (s.bus.localAddr a) n) (s.bus.poisoned (s.bus.localAddr a) n)) := by
  simp [State.readTx, h, hp]

/-- R21, R23: a write that no range serves, or of the intake table SRAM by another than an SIE, is refused however it was issued. -/
theorem State.writeTx_refused (s : State) (r : Requester) (a : Nat) (bs : List Byte) (src : WriteSrc) (hne : bs ≠ [])
    (h : s.bus.served a bs.length = false ∨ (s.bus.place a = .intake ∧ isSie r = false)) :
    s.writeTx r a bs src = s.refuseAccess a := by
  have hbus : s.bus.writeTx r a bs src false false = (s.bus.busErr, .busErr) := by
    rcases h with h | ⟨hp, hr⟩
    · simp [Bus.writeTx, hne, h]
    · simp [Bus.writeTx, hne, hp, hr]
  have hregs : (s.bus.served a bs.length && decide (s.bus.place a = .regs)) = false := by
    rcases h with h | ⟨hp, -⟩
    · simp [h]
    · simp [hp]
  rw [State.writeTx, if_neg (by simp [hregs]), hbus]
  rfl

theorem State.writeTx_memory (s : State) (r : Requester) (a : Nat) (bs : List Byte) (hne : bs ≠ [])
    (h : s.bus.served a bs.length = true) (hp : s.bus.place a = .um ∨ (s.bus.place a = .intake ∧ isSie r = true)) :
    s.writeTx r a bs .direct = s.onBus (·.store (s.bus.localAddr a) bs false) := by
  rcases hp with hp | ⟨hp, hr⟩
  · simp [State.writeTx, Bus.writeTx, hne, h, hp, State.onBus]
  · simp [State.writeTx, Bus.writeTx, hne, h, hp, hr, State.onBus]

/-- A write to HBM stores its bytes and leaves its access of the history cache to be performed. -/
theorem State.writeTx_hbm (s : State) (r : Requester) (a : Nat) (bs : List Byte) (hne : bs ≠ [])
    (h : s.bus.served a bs.length = true) (hp : s.bus.place a = .hbm) :
    s.writeTx r a bs .direct = s.onBus (fun b =>
      { b with late := b.late ++ [Late.hbm (s.bus.localAddr a) bs.length] }.store (s.bus.localAddr a) bs false) := by
  simp [State.writeTx, Bus.writeTx, hne, h, hp, State.onBus]

/-- A command that left one access of HBM is settled by counting it. -/
theorem State.settle_hbm (o : Option (UnitId × Fin 2)) (k : Nat) (s : State) (a n : Nat) (hl : inLine a n)
    (h : s.bus.late = [.hbm a n]) : s.settle o (k + 1) = s.onBus (fun b => { b with late := [] }.hcAccess a n) := by
  have hperf : s.settle o (k + 1) = State.settle none k (s.onBus (fun b => { b with late := [] }.hcAccess a n)) := by
    simp [State.settle, h, State.perform, State.onBus]
  rw [hperf]
  apply State.settle_done
  rw [State.onBus_bus, Bus.hcAccess_of_inLine _ a n hl, Bus.inc_late]

-- The commands ------------------------------------------------------------------------------------------------------------------------------

theorem exec_fabricAccess (r : Requester) (a : BitVec 40) (op : FabOp) (s : State) (hu : s.up) (hi : s.canIssue r = true) :
    exec (.fabricAccess r a op) s = .next ((s.fabric r a.toNat op).settle none 4) := by
  have harm : exec (.fabricAccess r a op) s = execFabricAccess r a op s := rfl
  rw [harm, execFabricAccess, State.main_runs s _ hu.1, if_pos hi]
  rfl

/-- R28: an endpoint's request is served as fabric transactions, or refused whole. -/
theorem exec_hostBarAccess (e : Fin 2) (bar : Bar) (off : Nat) (op : FabOp) (s : State) (hu : s.up)
    (hi : s.canIssue (.pcie e) = true) :
    exec (.hostBarAccess e bar off op) s = .next (State.settle none 4
      (if s.barServed bar off (opLen op) = true then s.fabric (.pcie e) (barBase bar + off) (opDirect op)
       else s.emit (.unsupported e off))) := by
  have harm : exec (.hostBarAccess e bar off op) s = execHostBarAccess e bar off op s := rfl
  rw [harm, execHostBarAccess, State.main_runs s _ hu.1, if_neg (by simp [hi])]
  rfl

theorem State.fabric_read_inLine (s : State) (r : Requester) (a n : Nat) (h : inLine a n) :
    s.fabric r a (.read n) = s.readTx r a n := by
  simp only [State.fabric, lines_of_inLine _ a n h, List.foldl_cons, List.foldl_nil]

theorem State.fabric_write_inLine (s : State) (r : Requester) (a : Nat) (bs : List Byte) (src : WriteSrc) (h : inLine a bs.length) :
    s.fabric r a (.write bs src) = s.writeTx r a bs src := by
  simp only [State.fabric, lines_of_inLine _ a _ h, List.foldl_cons, List.foldl_nil, Nat.sub_self, sub_all]

/-- A read in one line that leaves no access to be performed ends where its transaction does. -/
theorem exec_fabricAccess_read (s : State) (r : Requester) (a : BitVec 40) (n : Nat) (hu : s.up) (hi : s.canIssue r = true)
    (hl : inLine a.toNat n) (hlate : (s.readTx r a.toNat n).bus.late = []) :
    exec (.fabricAccess r a (.read n)) s = .next (s.readTx r a.toNat n) := by
  rw [exec_fabricAccess r a _ s hu hi, State.fabric_read_inLine s r _ n hl, State.settle_done none 4 _ hlate]

/-- A write in one line is its transaction, with the access that it leaves performed. -/
theorem exec_fabricAccess_write (s : State) (r : Requester) (a : BitVec 40) (bs : List Byte) (src : WriteSrc) (hu : s.up)
    (hi : s.canIssue r = true) (hl : inLine a.toNat bs.length) :
    exec (.fabricAccess r a (.write bs src)) s = .next ((s.writeTx r a.toNat bs src).settle none 4) := by
  rw [exec_fabricAccess r a _ s hu hi, State.fabric_write_inLine s r _ bs src hl]

theorem ne_nil_of_inLine (a : Nat) (bs : List Byte) (h : inLine a bs.length) : bs ≠ [] := List.ne_nil_of_length_pos h.1

theorem State.up.regs_wf {s : State} (h : s.up) : RegFile.wf s.bus.regs = true := ((Bus.wf_iff s.bus).mp h.2.1).2.2.2

theorem State.up.mem_wf {s : State} (h : s.up) : Mem.wf s.bus.mem = true := ((Bus.wf_iff s.bus).mp h.2.1).1

-- Fabric transactions (R21, R23, R85) ---------------------------------------------------------------------------------------------------------

section

variable {s : State} {r : Requester} {a : BitVec 40} (hu : s.up) (hi : s.canIssue r = true)
include hu hi

theorem fabricRead_memory (n : Nat) (hl : inLine a.toNat n) (hs : s.bus.served a.toNat n = true)
    (hp : s.bus.place a.toNat = .um ∨ s.bus.place a.toNat = .intake) :
    Completes (.fabricAccess r a (.read n)) s fun t =>
      t = s.emit (.memData a.toNat (s.bus.rdN (s.regAddr a) n) (s.bus.poisoned (s.regAddr a) n)) := by
  have htx := State.readTx_memory s r a.toNat n hs hp
  exact ⟨_, exec_fabricAccess_read s r a n hu hi hl (by rw [htx]; exact hu.2.2), htx⟩

theorem fabricRead_hbm (n : Nat) (hl : inLine a.toNat n) (hs : s.bus.served a.toNat n = true) (hp : s.bus.place a.toNat = .hbm) :
    Completes (.fabricAccess r a (.read n)) s fun t =>
      t.bus.out = .memData a.toNat (s.bus.rdN (s.regAddr a) n) (s.bus.poisoned (s.regAddr a) n) :: s.bus.out ∧ CacheCounted s t
      ∧ t = { s with bus := { s.bus with regs := t.bus.regs, free := t.bus.free, out := t.bus.out } } := by
  have hll := s.bus.inLine_localAddr a.toNat n hl
  have htx := State.readTx_hbm s r a.toNat n hs hp
  have hcount : CacheCounted s (s.readTx r a.toNat n) :=
    cacheCounted_of_regs_eq s _ s.bus _ n hu.regs_wf hll rfl (by rw [htx]; rfl)
  rw [State.onBus, Bus.hcAccess_of_inLine s.bus _ n hll] at htx
  refine ⟨_, exec_fabricAccess_read s r a n hu hi hl ?_, ?_, hcount, ?_⟩
  · rw [htx]; exact hu.2.2
  · rw [htx]; rfl
  · rw [htx]; rfl

theorem fabricRead_refused (n : Nat) (hl : inLine a.toNat n) (hs : s.bus.served a.toNat n = false) :
    Completes (.fabricAccess r a (.read n)) s fun t => AccessRefused s t a.toNat := by
  have htx := State.readTx_unserved s r a.toNat n hs
  refine ⟨_, exec_fabricAccess_read s r a n hu hi hl (by rw [htx]; exact hu.2.2), ?_⟩
  rw [htx]
  exact s.accessRefused_refuseAccess a.toNat hu.regs_wf

theorem fabricWrite_memory (bs : List Byte) (hl : inLine a.toNat bs.length) (hs : s.bus.served a.toNat bs.length = true)
    (hp : s.bus.place a.toNat = .um ∨ (s.bus.place a.toNat = .intake ∧ isSie r = true)) :
    Completes (.fabricAccess r a (.write bs .direct)) s fun t =>
      t.bus.rdN (s.regAddr a) bs.length = bs ∧ SameMemBut s t (s.regAddr a) bs.length
      ∧ t = { s with bus := { s.bus with mem := t.bus.mem, poison := t.bus.poison } } := by
  have htx := State.writeTx_memory s r a.toNat bs (ne_nil_of_inLine _ bs hl) hs hp
  refine ⟨s.onBus (·.store (s.regAddr a) bs false), ?_, ?_, ?_, rfl⟩
  · rw [exec_fabricAccess_write s r a bs .direct hu hi hl, htx]
    exact congrArg _ (State.settle_done none 4 (s.onBus (·.store (s.regAddr a) bs false)) hu.2.2)
  · exact Bus.rdN_store s.bus _ bs false hu.mem_wf
  · exact fun x hx => Bus.rd_store_out s.bus _ bs false x hu.mem_wf hx

theorem fabricWrite_hbm (bs : List Byte) (hl : inLine a.toNat bs.length) (hs : s.bus.served a.toNat bs.length = true)
    (hp : s.bus.place a.toNat = .hbm) :
    Completes (.fabricAccess r a (.write bs .direct)) s fun t =>
      t.bus.rdN (s.regAddr a) bs.length = bs ∧ SameMemBut s t (s.regAddr a) bs.length ∧ CacheCounted s t
      ∧ t = { s with bus := { s.bus with mem := t.bus.mem, poison := t.bus.poison, regs := t.bus.regs, free := t.bus.free } } := by
  have hll := s.bus.inLine_localAddr a.toNat bs.length hl
  have htx : s.writeTx r a.toNat bs .direct = _ := State.writeTx_hbm s r a.toNat bs (ne_nil_of_inLine _ bs hl) hs hp
  have hset : exec (.fabricAccess r a (.write bs .direct)) s
      = .next (s.onBus fun b => (b.store (s.regAddr a) bs false).hcAccess (s.regAddr a) bs.length) := by
    rw [exec_fabricAccess_write s r a bs .direct hu hi hl, htx,
      State.settle_hbm none 3 _ (s.bus.localAddr a.toNat) bs.length hll (by simp [hu.2.2])]
    simp [State.onBus, Bus.store, State.regAddr, ← hu.2.2]
  have hcache := Bus.hcAccess_of_inLine (s.bus.store (s.regAddr a) bs false) (s.regAddr a) bs.length hll
  refine ⟨_, hset, ?_, ?_, ?_, ?_⟩
  · rw [State.onBus_bus, hcache]
    exact Bus.rdN_store s.bus _ bs false hu.mem_wf
  · intro x hx
    rw [State.onBus_bus, hcache]
    exact Bus.rd_store_out s.bus _ bs false x hu.mem_wf hx
  · exact cacheCounted_of_regs_eq s _ (s.bus.store (s.regAddr a) bs false) _ _ hu.regs_wf hll rfl rfl
  · rw [State.onBus, hcache]
    rfl

theorem fabricWrite_refused (bs : List Byte) (src : WriteSrc) (hl : inLine a.toNat bs.length)
    (h : s.bus.served a.toNat bs.length = false ∨ (s.bus.place a.toNat = .intake ∧ isSie r = false)) :
    Completes (.fabricAccess r a (.write bs src)) s fun t => AccessRefused s t a.toNat := by
  refine ⟨s.refuseAccess a.toNat, ?_, s.accessRefused_refuseAccess a.toNat hu.regs_wf⟩
  rw [exec_fabricAccess_write s r a bs src hu hi hl, State.writeTx_refused s r _ bs src (ne_nil_of_inLine _ bs hl) h,
    State.settle_done none 4 (s.refuseAccess a.toNat) hu.2.2]

end

-- Host requests (R28) -----------------------------------------------------------------------------------------------------------------------

theorem hostAccess_unsupported (s : State) (e : Fin 2) (bar : Bar) (off : Nat) (op : FabOp) (hu : s.up)
    (hi : s.canIssue (.pcie e) = true) (h : s.barServed bar off (opLen op) = false) :
    Completes (.hostBarAccess e bar off op) s fun t => t = s.emit (.unsupported e off) := by
  refine ⟨_, ?_, rfl⟩
  rw [exec_hostBarAccess e bar off op s hu hi, if_neg (by simp [h]),
    State.settle_done none 4 (s.emit (.unsupported e off)) hu.2.2]

theorem Bus.place_um (b : Bus) (a : Nat) (h : a < 0x0A000000) : b.place a = .um := by
  rw [Bus.place, if_neg (by omega), placeLocal, if_pos h]

theorem Bus.localAddr_um (b : Bus) (a : Nat) (h : a < 0x0A000000) : b.localAddr a = a := if_neg (by omega)

theorem Bus.served_um (b : Bus) (a n : Nat) (hpos : 0 < n) (h : a + n ≤ 0x0A000000) : b.served a n = true := by
  rw [Bus.served, b.place_um a (by omega), b.place_um (a + n - 1) (by omega)]
  simp [Place.joins]

/-- R28: unified memory lies in BAR2 from its first byte on. -/
theorem State.barServed_um (s : State) (off n : Nat) (hl : inLine off n) (h : off + n ≤ 0x0A000000) : s.barServed .bar2 off n = true := by
  have hline : lines (n / 64 + 2) off n = [(off, n)] := lines_of_inLine _ off n hl
  have hfit : off + n ≤ 0x20000000 := by omega
  simp [State.barServed, barBase, barSize, hline, hfit, s.bus.served_um off n hl.1 h]

theorem hostRead_um (s : State) (e : Fin 2) (off n : Nat) (hu : s.up) (hi : s.canIssue (.pcie e) = true) (hl : inLine off n)
    (h : off + n ≤ 0x0A000000) : Completes (.hostBarAccess e .bar2 off (.read n)) s fun t =>
      t = s.emit (.memData off (s.bus.rdN off n) (s.bus.poisoned off n)) := by
  have hpos : 0 < n := hl.1
  have htx := State.readTx_memory s (.pcie e) off n (s.bus.served_um off n hpos h) (.inl (s.bus.place_um off (by omega)))
  rw [s.bus.localAddr_um off (by omega)] at htx
  have hfab : s.fabric (.pcie e) (barBase .bar2 + off) (opDirect (.read n))
      = s.emit (.memData off (s.bus.rdN off n) (s.bus.poisoned off n)) := by
    rw [barBase, Nat.zero_add, opDirect, State.fabric_read_inLine s _ off n hl, htx]
  refine ⟨_, ?_, rfl⟩
  rw [exec_hostBarAccess e .bar2 off (.read n) s hu hi, opLen, if_pos (s.barServed_um off n hl h), hfab,
    State.settle_done none 4 (s.emit _) hu.2.2]

/-- Settles O9, transaction by transaction: each clause is the rule of the place that the address names, refusals included. -/
theorem fabricTransactionsAndHostRequests : Obligations.FabricTransactionsAndHostRequests := by
  unfold Obligations.FabricTransactionsAndHostRequests
  refine ⟨fun s r a hu hi => ⟨fun n hl hs => ?_, fun bs hl hs => ?_, fun bs src => fabricWrite_refused hu hi bs src,
    fun n => fabricRead_refused hu hi n⟩, fun s e bar off hu hi => ⟨fun op => hostAccess_unsupported s e bar off op hu hi,
    fun n => hostRead_um s e off n hu hi⟩⟩
  · exact ⟨fabricRead_memory hu hi n hl hs, fabricRead_hbm hu hi n hl hs⟩
  · exact ⟨fabricWrite_memory hu hi bs hl hs, fabricWrite_hbm hu hi bs hl hs⟩

end Sys2Proof.Machine
end

section
/-! SUPPORT. Unified memory: what ADD and SET leave of a sync object, and the statements about sync operations, forced port cycles, aging
and port maps. -/

namespace Sys2Proof.Machine

-- Words of a sync object (R104) -------------------------------------------------------------------------------------------------------------

/-- REACHED depends on COUNT and TARGET alone. -/
theorem Bus.reached_congr {b c : Bus} {n : Nat} (hc : c.count n = b.count n) (ht : c.target n = b.target n) :
    c.reached n = b.reached n := by
  rw [Bus.reached, Bus.reached, hc, ht]

section

variable (b : Bus) (n v : Nat) (h : RegFile.wf b.regs = true)
include h

theorem Bus.flag_setField_other (a hi lo i : Nat) (h1 : lo ≤ hi) (h2 : hi < 32) (hi' : i < lo ∨ hi < i) :
    (b.setField a hi lo v).flag a i = b.flag a i := by
  unfold Bus.flag
  rw [Bus.reg_setField b a hi lo v a h h1 h2, if_pos rfl, bit_setBits _ _ _ _ _ h1, if_neg (by omega)]

theorem Bus.field_setField_other (a hi lo hi' lo' : Nat) (h1 : lo ≤ hi) (h2 : hi < 32) (hd : hi' < lo ∨ hi < lo') :
    (b.setField a hi lo v).field a hi' lo' = b.field a hi' lo' := by
  unfold Bus.field
  rw [Bus.reg_setField b a hi lo v a h h1 h2, if_pos rfl, bits_setBits_other _ _ _ _ _ _ h1 hd]

/-- R104: REACHED brought up to date, and the interrupt where it becomes 1. -/
theorem Bus.reachIrq_eq (was : Bool) : b.reachIrq n was =
    { b.setFlag (syncB n + 8) 23 (b.reached n) with
      out := if (!was && b.reached n && b.flag (syncB n + 8) 15) = true then .irqMgt (syncB n) :: b.out else b.out } := by
  have hreg : ∀ a, a ≠ syncB n + 8 → (b.setFlag (syncB n + 8) 23 (b.reached n)).reg a = b.reg a :=
    fun a ha => Bus.reg_setField_other b _ _ _ _ a h ha
  have hreached : (b.setFlag (syncB n + 8) 23 (b.reached n)).reached n = b.reached n :=
    Bus.reached_congr (hreg _ (by simp)) (hreg _ (by simp))
  have hirq : (b.setFlag (syncB n + 8) 23 (b.reached n)).flag (syncB n + 8) 15 = b.flag (syncB n + 8) 15 :=
    Bus.flag_setField_other b _ h _ _ _ _ (Nat.le_refl _) (by decide) (by decide)
  simp only [Bus.reachIrq, hreached, hirq]
  split <;> rfl

theorem Bus.reg_setCount (a : Nat) : (b.setCount n v).reg a =
    if a = syncB n + 8 then setBits (b.reg (syncB n + 8)) 23 23 (b2n ((b.setReg (syncB n) v).reached n))
    else if a = syncB n then v % 2 ^ 32 else b.reg a := by
  have hw : RegFile.wf (b.setReg (syncB n) v).regs = true := Bus.setReg_regs_wf b _ _ h
  rw [Bus.setCount, Bus.reachIrq_eq _ _ hw]
  refine (Bus.reg_setFlag (b.setReg (syncB n) v) _ 23 _ a hw (by decide)).trans ?_
  have hother : (b.setReg (syncB n) v).reg (syncB n + 8) = b.reg (syncB n + 8) := by
    rw [Bus.reg_setReg b _ _ _ h, if_neg (by simp)]
  rw [hother, Bus.reg_setReg b _ a _ h]

theorem Bus.setCount_regs_wf : RegFile.wf (b.setCount n v).regs = true := by
  have hw : RegFile.wf (b.setReg (syncB n) v).regs = true := Bus.setReg_regs_wf b _ _ h
  rw [Bus.setCount, Bus.reachIrq_eq _ _ hw]
  exact Bus.setFlag_regs_wf _ _ _ _ hw

theorem Bus.count_setCount : (b.setCount n v).count n = v % 2 ^ 32 := by
  rw [Bus.count, Bus.reg_setCount b n v h, if_neg (by simp), if_pos rfl]

theorem Bus.target_setCount : (b.setCount n v).target n = b.target n := by
  rw [Bus.target, Bus.reg_setCount b n v h, if_neg (by simp), if_neg (by simp), Bus.target]

theorem Bus.epoch_setCount : (b.setCount n v).epoch n = b.epoch n := by
  rw [Bus.epoch, Bus.field, Bus.reg_setCount b n v h, if_pos rfl, bits_setBits_other _ _ _ _ _ _ (Nat.le_refl _) (by decide)]
  rfl

theorem Bus.reached_setCount : (b.setCount n v).reached n = (b.setReg (syncB n) v).reached n := by
  have ht : (b.setReg (syncB n) v).target n = b.target n := by rw [Bus.target, Bus.reg_setReg b _ _ _ h, if_neg (by simp), Bus.target]
  have hc : (b.setReg (syncB n) v).count n = v % 2 ^ 32 := by rw [Bus.count, Bus.reg_setReg b _ _ _ h, if_pos rfl]
  rw [Bus.reached, Bus.reached, Bus.count_setCount b n v h, Bus.target_setCount b n v h, ht, hc]

/-- R104: bit 23 shows REACHED. -/
theorem Bus.flag_reached_setCount : (b.setCount n v).flag (syncB n + 8) 23 = (b.setCount n v).reached n := by
  rw [Bus.flag, Bus.reg_setCount b n v h, if_pos rfl, bit_setBits _ _ _ _ _ (Nat.le_refl _), if_pos ⟨Nat.le_refl _, Nat.le_refl _⟩,
    Nat.sub_self, bit_b2n, Bus.reached_setCount b n v h]

theorem Bus.out_setCount : (b.setCount n v).out =
    if (!b.reached n && (b.setCount n v).reached n && b.flag (syncB n + 8) 15) = true then .irqMgt (syncB n) :: b.out else b.out := by
  have hw : RegFile.wf (b.setReg (syncB n) v).regs = true := Bus.setReg_regs_wf b _ _ h
  have hirq : (b.setReg (syncB n) v).flag (syncB n + 8) 15 = b.flag (syncB n + 8) 15 := by
    rw [Bus.flag, Bus.reg_setReg b _ _ _ h, if_neg (by simp), Bus.flag]
  rw [Bus.reached_setCount b n v h, Bus.setCount, Bus.reachIrq_eq _ _ hw, hirq]
  rfl

/-- COUNT set changes nothing but the object's words and the outputs. -/
theorem Bus.setCount_eq : b.setCount n v = { b with regs := (b.setCount n v).regs, out := (b.setCount n v).out } := by
  rw [Bus.setCount, Bus.reachIrq_eq _ _ (Bus.setReg_regs_wf b _ _ h)]
  rfl

end

theorem Bus.set_eq (b : Bus) (n k : Nat) :
    b.set n k = (b.setCount n (k % 2 ^ 32)).setField (syncB n + 8) 7 0 (((b.setCount n (k % 2 ^ 32)).epoch n + 1) % 256) := rfl

/-- The registers and outputs of a bus that differs in nothing else, by the words it may differ in. -/
theorem onlyRegsOut_of_bus {s : State} {c : Bus} {l : List Nat} (hc : c = { s.bus with regs := c.regs, out := c.out })
    (h : ∀ a, a ∉ l → c.reg a = s.bus.reg a) : OnlyRegsOut s { s with bus := c } l := by
  refine ⟨?_, h⟩
  rw [hc]

theorem onlyRegs_of_bus {s : State} {c : Bus} {l : List Nat} (hc : c = { s.bus with regs := c.regs })
    (h : ∀ a, a ∉ l → c.reg a = s.bus.reg a) : OnlyRegs s { s with bus := c } l := by
  refine ⟨?_, h⟩
  rw [hc]

-- ADD and SET (R105) ------------------------------------------------------------------------------------------------------------------------

/-- A command of the main dies that acts on the bus alone. -/
theorem completes_onBus {c : Instr} {s : State} {f : Bus → Bus} {P : State → Prop} (hu : s.up)
    (hc : exec c s = .next (s.main fun s => s.onBus f)) (h : P { s with bus := f s.bus }) : Completes c s P :=
  ⟨_, by rw [hc, State.main_runs s _ hu.1]; rfl, h⟩

section

variable {s : State} (hu : s.up) (n : Fin 16384) (k : BitVec 24)
include hu

theorem syncAdd_counts (hk : s.bus.kind n.val ≠ 1) : Completes (.syncAdd n k) s fun t =>
    t.bus.count n.val = (s.bus.count n.val + k.toNat) % 2 ^ 32 ∧ t.bus.target n.val = s.bus.target n.val
    ∧ t.bus.epoch n.val = s.bus.epoch n.val ∧ t.bus.flag (syncB n.val + 8) 23 = t.bus.reached n.val
    ∧ t.bus.out = (if (!s.bus.reached n.val && t.bus.reached n.val && s.bus.flag (syncB n.val + 8) 15) = true
        then .irqMgt (syncB n.val) :: s.bus.out else s.bus.out)
    ∧ OnlyRegsOut s t [syncB n.val, syncB n.val + 8] := by
  have hw := hu.regs_wf
  have hadd : s.bus.add n.val k.toNat = s.bus.setCount n.val ((s.bus.count n.val + k.toNat) % 2 ^ 32) := if_neg (by simp [hk])
  refine completes_onBus hu rfl ?_
  rw [hadd]
  refine ⟨?_, Bus.target_setCount _ _ _ hw, Bus.epoch_setCount _ _ _ hw, Bus.flag_reached_setCount _ _ _ hw, Bus.out_setCount _ _ _ hw,
    onlyRegsOut_of_bus (Bus.setCount_eq _ _ _ hw) fun a ha => ?_⟩
  · exact (Bus.count_setCount _ _ _ hw).trans (Nat.mod_mod _ _)
  · simp only [List.mem_cons, List.not_mem_nil, or_false, not_or] at ha
    rw [Bus.reg_setCount _ _ _ hw, if_neg ha.2, if_neg ha.1]

/-- R104, R108: a refusal on a sync object is counted. -/
theorem syncAdd_refused (hk : s.bus.kind n.val = 1) : Completes (.syncAdd n k) s fun t =>
    t.bus.flag (syncB n.val + 8) 22 = true
    ∧ t.bus.field (syncB n.val + 8) 31 24 = Nat.min (s.bus.field (syncB n.val + 8) 31 24 + 1) 255
    ∧ OnlyRegs s t [syncB n.val + 8] := by
  have hw := hu.regs_wf
  have hw' := Bus.setFlag_regs_wf s.bus (syncB n.val + 8) 22 true hw
  have hadd : s.bus.add n.val k.toNat = s.bus.refuse n.val := if_pos ⟨hk, rfl⟩
  refine completes_onBus hu rfl ?_
  rw [hadd, Bus.refuse]
  refine ⟨?_, ?_, onlyRegs_of_bus rfl fun a ha => ?_⟩
  · refine (Bus.flag_setField_other _ _ hw' _ _ _ _ (by decide) (by decide) (by decide)).trans ?_
    rw [Bus.flag_setFlag _ _ _ _ _ _ hw (by decide), if_pos ⟨rfl, rfl⟩]
  · refine (Bus.field_setField_same _ _ _ _ _ hw' (by decide) (by decide)).trans (Nat.mod_eq_of_lt ?_)
    have : Nat.min (s.bus.field (syncB n.val + 8) 31 24 + 1) 255 ≤ 255 := Nat.min_le_right _ _
    omega
  · have ha' : a ≠ syncB n.val + 8 := by simpa using ha
    rw [Bus.reg_setField_other _ _ _ _ _ _ hw' ha', Bus.setFlag, Bus.reg_setField_other _ _ _ _ _ _ hw ha']

theorem syncSet_sets : Completes (.syncSet n k) s fun t =>
    t.bus.count n.val = k.toNat ∧ t.bus.target n.val = s.bus.target n.val ∧ t.bus.epoch n.val = (s.bus.epoch n.val + 1) % 256
    ∧ t.bus.flag (syncB n.val + 8) 23 = t.bus.reached n.val
    ∧ t.bus.out = (if (!s.bus.reached n.val && t.bus.reached n.val && s.bus.flag (syncB n.val + 8) 15) = true
        then .irqMgt (syncB n.val) :: s.bus.out else s.bus.out)
    ∧ OnlyRegsOut s t [syncB n.val, syncB n.val + 8] := by
  have hw := hu.regs_wf
  have hk : k.toNat % 2 ^ 32 = k.toNat := Nat.mod_eq_of_lt (by have := k.isLt; omega)
  have hset := s.bus.set_eq n.val k.toNat
  rw [hk, Bus.epoch_setCount _ _ _ hw] at hset
  generalize hc : s.bus.setCount n.val k.toNat = c at hset
  have hwc : RegFile.wf c.regs = true := hc ▸ Bus.setCount_regs_wf _ _ _ hw
  have hreg : ∀ a, a ≠ syncB n.val + 8 → (s.bus.set n.val k.toNat).reg a = c.reg a :=
    fun a ha => by rw [hset, Bus.reg_setField_other _ _ _ _ _ _ hwc ha]
  have hcount : (s.bus.set n.val k.toNat).count n.val = c.count n.val := hreg _ (by simp)
  have htarget : (s.bus.set n.val k.toNat).target n.val = c.target n.val := hreg _ (by simp)
  have hreached : (s.bus.set n.val k.toNat).reached n.val = c.reached n.val := Bus.reached_congr hcount htarget
  refine completes_onBus hu rfl ?_
  refine ⟨?_, ?_, ?_, ?_, ?_, onlyRegsOut_of_bus ?_ fun a ha => ?_⟩
  · exact hcount.trans (by rw [← hc, Bus.count_setCount _ _ _ hw, hk])
  · exact htarget.trans (by rw [← hc, Bus.target_setCount _ _ _ hw])
  · rw [hset]
    refine (Bus.field_setField_same _ _ _ _ _ hwc (by decide) (by decide)).trans ?_
    exact Nat.mod_mod _ _
  · refine Eq.trans ?_ hreached.symm
    rw [hset, Bus.flag_setField_other _ _ hwc _ _ _ _ (by decide) (by decide) (by decide), ← hc, Bus.flag_reached_setCount _ _ _ hw]
  · show (s.bus.set n.val k.toNat).out = if (_ && (s.bus.set n.val k.toNat).reached n.val && _) = true then _ else _
    rw [hreached, hset, ← hc]
    exact Bus.out_setCount _ _ _ hw
  · rw [hset, ← hc, Bus.setCount_eq _ _ _ hw]
    rfl
  · simp only [List.mem_cons, List.not_mem_nil, or_false, not_or] at ha
    rw [hreg a ha.2, ← hc, Bus.reg_setCount _ _ _ hw, if_neg ha.2, if_neg ha.1]

end

/-- Settles O16: ADD and SET write COUNT through one operation, which brings REACHED up to date; SET then moves EPOCH on in the same
word. -/
theorem syncOperations : Obligations.SyncOperations := by
  unfold Obligations.SyncOperations
  intro s n k hu
  exact ⟨syncAdd_counts hu n k, syncAdd_refused hu n k, syncSet_sets hu n k⟩

-- Forced port cycles, aging and port maps (R97, R117, R119) -----------------------------------------------------------------------------------

section

variable {s : State} (hu : s.up)
include hu

/-- A command that counts one event in the register at `a` and does nothing else. -/
theorem completes_inc {c : Instr} (a : Nat) (hc : exec c s = .next (s.main fun s => s.onBus (·.inc a))) : Completes c s fun t =>
    t.bus.reg a = Nat.min (s.bus.reg a + 1) 0xFFFFFFFF ∧ OnlyRegs s t [a] := by
  refine completes_onBus hu hc ⟨?_, onlyRegs_of_bus rfl fun x hx => ?_⟩
  · rw [Bus.reg_inc _ _ _ hu.regs_wf, if_pos rfl]
  · rw [Bus.reg_inc _ _ _ hu.regs_wf, if_neg (by simpa using hx)]

theorem completes_unchanged {c : Instr} (hc : exec c s = .next (s.main fun s => s)) : Completes c s fun t => t = s :=
  ⟨s, by rw [hc, State.main_runs s _ hu.1], rfl⟩

end

theorem fabForce_forced {s : State} (hu : s.up) (um : Fin 36) (w : Nat) (hw : 64 ≤ w) : Completes (.fabForce um w) s fun t =>
    t.bus.reg (umB um + 0x8208) = Nat.min (s.bus.reg (umB um + 0x8208) + 1) 0xFFFFFFFF ∧ OnlyRegs s t [umB um + 0x8208] :=
  completes_inc hu _ (by
    show execFabForce um w s = _
    simp only [execFabForce, if_neg (Nat.not_lt.mpr hw)])

theorem umPortmap_taken {s : State} (hu : s.up) (um : Fin 36) (v : Word) (ha : s.fseq.anyAdmitted = false) :
    Completes (.umPortmapWrite um v) s fun t =>
      t.bus.reg (umB um + 0x8000) = (if um.val < 32 then v.toNat % 2 ^ 16 else v.toNat) ∧ OnlyRegs s t [umB um + 0x8000] := by
  have hfit : (if um.val < 32 then v.toNat % 2 ^ 16 else v.toNat) < 2 ^ 32 := by
    have := v.isLt
    split <;> omega
  refine completes_onBus hu (f := fun b => b.setReg (umB um + 0x8000) (if um.val < 32 then v.toNat % 2 ^ 16 else v.toNat)) ?_
    ⟨?_, onlyRegs_of_bus rfl fun a ha => ?_⟩
  · show execUmPortmapWrite um v s = _
    simp only [execUmPortmapWrite, State.writePortmap, State.main_runs s _ hu.1, ha, Bool.false_eq_true, if_false]
  · rw [Bus.reg_setReg _ _ _ _ hu.regs_wf, if_pos rfl, Nat.mod_eq_of_lt hfit]
  · rw [Bus.reg_setReg _ _ _ _ hu.regs_wf, if_neg (by simpa using ha)]

theorem umPortmap_refused {s : State} (hu : s.up) (um : Fin 36) (v : Word) (ha : s.fseq.anyAdmitted = true) :
    Completes (.umPortmapWrite um v) s fun t => t.bus.flag (umB um + 0x8004) 25 = true ∧ OnlyRegs s t [umB um + 0x8004] := by
  refine completes_onBus hu (f := fun b => b.raise (umB um + 0x8004) 25) ?_ ⟨?_, onlyRegs_of_bus rfl fun a ha => ?_⟩
  · show execUmPortmapWrite um v s = _
    simp only [execUmPortmapWrite, State.writePortmap, State.main_runs s _ hu.1, ha, if_true]
  · rw [Bus.flag_raise _ _ _ _ _ hu.regs_wf (by decide), if_pos ⟨rfl, rfl⟩]
  · rw [Bus.reg_raise _ _ _ _ hu.regs_wf (by decide), if_neg (by simpa using ha)]

/-- Settles O17: a count where the wait passes its limit, and a port map that is taken or refused by whether a task is admitted. -/
theorem portForcingAgingAndPortMaps : Obligations.PortForcingAgingAndPortMaps := by
  unfold Obligations.PortForcingAgingAndPortMaps
  intro s um arb w v hu
  refine ⟨fabForce_forced hu um w, fun hw => ?_, fun hw => ?_, fun hw => ?_, umPortmap_taken hu um v, umPortmap_refused hu um v⟩
  · exact completes_unchanged hu (by
      show execFabForce um w s = _
      simp only [execFabForce, if_pos hw])
  · have hage : s.bus.ageLimit arb < w := hw
    exact completes_inc hu _ (by
      show execAgePromote arb w s = _
      simp only [execAgePromote, State.main_runs s _ hu.1, State.onBus, if_pos hage])
  · have hage : ¬ s.bus.ageLimit arb < w := Nat.not_lt.mpr hw
    exact completes_unchanged hu (by
      show execAgePromote arb w s = _
      simp only [execAgePromote, State.main_runs s _ hu.1, State.onBus, if_neg hage])

end Sys2Proof.Machine
end

section
/-! SUPPORT. What the reporting of faults, the reports to a system, reads, signals and the release of accumulators leave as it was: memory,
the accesses left to be performed, and the contexts; and what a ready step's command comes to. -/

namespace Sys2Proof.Machine

-- The bus -----------------------------------------------------------------------------------------------------------------------------------

/-- Memory and the list of accesses left to be performed are as before. -/
structure Bus.Still (b c : Bus) : Prop where
  mem : c.mem = b.mem
  late : c.late = b.late

theorem Bus.Still.refl (b : Bus) : b.Still b := ⟨rfl, rfl⟩

theorem Bus.Still.trans {b c d : Bus} (h : b.Still c) (h' : c.Still d) : b.Still d :=
  ⟨h'.mem.trans h.mem, h'.late.trans h.late⟩

theorem Bus.still_setReg (b : Bus) (a v : Nat) : b.Still (b.setReg a v) := ⟨rfl, rfl⟩

theorem Bus.still_free (b : Bus) (k : Nat) : b.Still { b with free := k } := ⟨rfl, rfl⟩

theorem Bus.still_setRegs (b : Bus) (a : Nat) (l : List Nat) : b.Still (b.setRegs a l) := by
  induction l generalizing b a with
  | nil => exact .refl b
  | cons v l ih => exact (b.still_setReg a v).trans (ih _ _)

theorem Bus.still_logFault (b : Bus) (f task code unit step time : Nat) : b.Still (b.logFault f task code unit step time) :=
  (b.still_setRegs _ _).trans (Bus.still_setReg _ _ _)

theorem Bus.still_refuse (b : Bus) (n : Nat) : b.Still (b.refuse n) := ⟨rfl, rfl⟩

theorem Bus.still_setCount (b : Bus) (n v : Nat) : b.Still (b.setCount n v) := by
  unfold Bus.setCount Bus.reachIrq
  dsimp only
  split
  · exact ⟨rfl, rfl⟩
  · exact ⟨rfl, rfl⟩

theorem Bus.still_add (b : Bus) (n k : Nat) (landing : Bool) : b.Still (b.add n k landing) := by
  unfold Bus.add
  split
  · exact b.still_refuse n
  · exact b.still_setCount n _

theorem Bus.still_doSignals (b : Bus) (f k : Nat) (l : List SignalEntry) : b.Still (doSignals b f k l) := by
  refine List.foldlRecOn (motive := b.Still) l _ (.refl b) fun c hc e _ => ?_
  split
  · exact hc.trans (c.still_add _ _ _)
  · exact hc

theorem Bus.still_hcAccess (b : Bus) (a n : Nat) : b.Still (b.hcAccess a n) :=
  List.foldlRecOn (motive := b.Still) _ _ (.refl b) fun _ hc _ _ => hc.trans ⟨rfl, rfl⟩

theorem Bus.still_kydToken (b : Bus) (o : Out) : b.Still (b.kydToken o) := by
  refine Bus.Still.trans (List.foldlRecOn (motive := b.Still) _ _ (.refl b) fun c hc d _ => ?_) ⟨rfl, rfl⟩
  split
  · exact hc
  · split
    · exact hc.trans ⟨rfl, rfl⟩
    · exact hc.trans ⟨rfl, rfl⟩

-- The state ---------------------------------------------------------------------------------------------------------------------------------

/-- Memory, the accesses left to be performed and every context are as before. -/
structure State.Still (s t : State) : Prop where
  bus : s.bus.Still t.bus
  ctxs : t.fseq.ctxs = s.fseq.ctxs

theorem State.Still.refl (s : State) : s.Still s := ⟨.refl _, rfl⟩

theorem State.Still.trans {s t r : State} (h : s.Still t) (h' : t.Still r) : s.Still r :=
  ⟨h.bus.trans h'.bus, h'.ctxs.trans h.ctxs⟩

theorem State.Still.ctx {s t : State} (h : s.Still t) (u : UnitId) (p : Fin 2) : t.ctx u p = s.ctx u p := by
  unfold State.ctx
  rw [h.ctxs]

theorem State.still_onBus (s : State) (f : Bus → Bus) (h : s.bus.Still (f s.bus)) : s.Still (s.onBus f) := ⟨h, rfl⟩

theorem State.still_token (s : State) (o : Out) : s.Still (s.token o) := s.still_onBus _ (s.bus.still_kydToken o)

theorem sameMem_of_mem {s t : State} (h : t.bus.mem = s.bus.mem) : SameMem s t := fun a => by rw [Bus.rd, Bus.rd, h]

theorem State.still_unfit (s : State) (f code : Nat) : s.Still (s.unfit f code) := ⟨.refl _, rfl⟩

theorem State.still_degrade (s : State) (f : Nat) : s.Still (s.degrade f) := by
  unfold State.degrade
  split
  · exact .refl s
  · exact ⟨.refl _, rfl⟩

theorem State.still_holdAcc (s : State) (i : Nat) (h : Option (Fin 2)) : s.Still (s.holdAcc i h) := ⟨⟨rfl, rfl⟩, rfl⟩

theorem State.still_releaseAcc (s : State) (u : UnitId) (p : Fin 2) : s.Still (s.releaseAcc u p) := by
  unfold State.releaseAcc
  split
  · split
    · exact s.still_holdAcc _ _
    · exact .refl s
  · exact .refl s

theorem State.still_freeDrained (s : State) (u : UnitId) (p : Fin 2) (pre : List Nat) : s.Still (s.freeDrained u p pre) := by
  unfold State.freeDrained
  cases u with
  | stn i =>
    dsimp only
    split
    · split
      all_goals
        split
        · exact s.still_holdAcc _ _
        · exact ⟨.refl _, rfl⟩
    · exact .refl s
  | _ => exact .refl s

-- Contexts ----------------------------------------------------------------------------------------------------------------------------------

theorem State.ctx_setCtx (s : State) (u : UnitId) (p : Fin 2) (y : Ctx) : (s.setCtx u p y).ctx u p = some y := by
  simp [State.ctx, State.setCtx, alook_aset]

theorem State.ctx_setCtx_other (s : State) (u u' : UnitId) (p p' : Fin 2) (y : Ctx) (h : (u', p') ≠ (u, p)) :
    (s.setCtx u p y).ctx u' p' = s.ctx u' p' := by
  simp [State.ctx, State.setCtx, alook_aset, h]

/-- R144, R145: memory, the accesses left and every stopped context are as before; the frame's other contexts may have stopped. -/
structure State.StillStopped (s t : State) : Prop where
  bus : s.bus.Still t.bus
  stopped : ∀ u p y, s.ctx u p = some y → y.stopped = true → t.ctx u p = some y

theorem State.StillStopped.refl (s : State) : s.StillStopped s := ⟨.refl _, fun _ _ _ h _ => h⟩

theorem State.StillStopped.trans {s t r : State} (h : s.StillStopped t) (h' : t.StillStopped r) : s.StillStopped r :=
  ⟨h.bus.trans h'.bus, fun u p y hy hs => h'.stopped u p y (h.stopped u p y hy hs) hs⟩

theorem State.Still.stillStopped {s t : State} (h : s.Still t) : s.StillStopped t :=
  ⟨h.bus, fun u p _ hy _ => (h.ctx u p).trans hy⟩

theorem State.ctx_stopCtx {s : State} {u : UnitId} {p : Fin 2} {y : Ctx} (h : s.ctx u p = some y) :
    (s.stopCtx u p).ctx u p = some { y with stopped := true } := by
  rw [State.stopCtx, h]
  exact ((State.still_releaseAcc _ u p).ctx u p).trans (s.ctx_setCtx u p _)

theorem State.stillStopped_stopCtx (s : State) (u : UnitId) (p : Fin 2) : s.StillStopped (s.stopCtx u p) := by
  cases h : s.ctx u p with
  | none =>
    rw [State.stopCtx, h]
    exact .refl s
  | some y =>
    refine ⟨?_, fun u' p' z hz hst => ?_⟩
    · rw [State.stopCtx, h]
      exact (State.still_releaseAcc (s.setCtx u p { y with stopped := true }) u p).bus
    · by_cases hk : (u', p') = (u, p)
      · obtain ⟨rfl, rfl⟩ := Prod.mk.inj hk
        obtain rfl : y = z := Option.some.inj (h.symm.trans hz)
        rw [State.ctx_stopCtx h, ← hst]
      · rw [State.stopCtx, h]
        exact ((State.still_releaseAcc _ u p).ctx u' p').trans ((s.ctx_setCtx_other u u' p p' _ hk).trans hz)

-- Faults (R144, R145) -----------------------------------------------------------------------------------------------------------------------

theorem State.stillStopped_abandonOne (s : State) (x : OpenFrame) : s.StillStopped (s.abandonOne x) := by
  have told : ∀ b : Bus, b.Still (((b.inc (fseqB + 0x204)).raise (fseqB + 4) 30).emit (.abandonToken (x.frame % 65536))) :=
    fun b => ⟨rfl, rfl⟩
  have hlog : ∀ task unit step, s.bus.Still { s.bus.logFault x.frame task 0x23 unit step s.now with free := s.bus.free + 3 } :=
    fun _ _ _ => (s.bus.still_logFault _ _ _ _ _ _).trans (Bus.still_free _ _)
  unfold State.abandonOne
  refine List.foldlRecOn (motive := s.StillStopped) _ _ ?_ fun t ht c _ => ht.trans (t.stillStopped_stopCtx _ _)
  refine State.Still.stillStopped (State.Still.trans ?_ (State.still_unfit _ _ _))
  refine ⟨?_, rfl⟩
  cases x.fault with
  | some c =>
    dsimp only
    split
    · exact (told _).trans (Bus.still_kydToken _ _)
    · exact told _
  | none =>
    dsimp only
    split
    · exact ((hlog _ _ _).trans (told _)).trans (Bus.still_kydToken _ _)
    · exact (hlog _ _ _).trans (told _)

theorem State.stillStopped_abandonAll (s : State) : s.StillStopped s.abandonAll :=
  List.foldlRecOn (motive := s.StillStopped) _ _ (.refl s) fun t ht x _ => ht.trans (t.stillStopped_abandonOne x)

theorem State.stillStopped_faultEffect (s : State) (f task code : Nat) (k : Option (UnitId × Fin 2)) :
    s.StillStopped (s.faultEffect f task code k) := by
  have hinc : ∀ a, s.StillStopped (s.onBus (·.inc a)) := fun a => (s.still_onBus _ ⟨rfl, rfl⟩).stillStopped
  unfold State.faultEffect
  cases faultClass code with
  | refused =>
    dsimp only
    split
    · exact (hinc _).trans (State.still_unfit _ _ _).stillStopped
    · exact (hinc _).trans (State.still_degrade _ _).stillStopped
  | stop =>
    cases k with
    | none => exact (hinc _).trans (State.stillStopped_abandonAll _)
    | some k => exact State.Still.stillStopped ⟨⟨rfl, rfl⟩, rfl⟩
  | continue' =>
    dsimp only
    split
    · exact (s.still_unfit _ _).stillStopped
    · exact .refl s
  | frame => exact s.stillStopped_abandonAll

/-- R151: a fault is logged, and its frame keeps its first fault, before its class takes effect. -/
theorem State.report_eq (s : State) (f task code unit step : Nat) (k : Option (UnitId × Fin 2)) :
    ∃ t, s.Still t ∧ s.report f task code unit step k = t.faultEffect f task code k :=
  ⟨{ s.onBus (·.logFault f task code unit step s.now) with fseq := s.fseq.modFrame f (·.note code) },
    ⟨s.bus.still_logFault f task code unit step s.now, rfl⟩, rfl⟩

theorem State.stillStopped_report (s : State) (f task code unit step : Nat) (k : Option (UnitId × Fin 2)) :
    s.StillStopped (s.report f task code unit step k) := by
  obtain ⟨t, ht, he⟩ := s.report_eq f task code unit step k
  rw [he]
  exact ht.stillStopped.trans (t.stillStopped_faultEffect _ _ _ _)

theorem State.stillStopped_reports (s : State) (f task unit step : Nat) (k : Option (UnitId × Fin 2)) (codes : List Nat) :
    s.StillStopped (s.reports f task unit step k codes) :=
  List.foldlRecOn (motive := s.StillStopped) _ _ (.refl s) fun t ht _ _ => ht.trans (t.stillStopped_report _ _ _ _ _ _)

/-- R144: a fault of a class that goes on leaves every context as it was. -/
theorem State.still_report_continues (s : State) (f task code unit step : Nat) (k : Option (UnitId × Fin 2))
    (hc : faultClass code = .continue') : s.Still (s.report f task code unit step k) := by
  obtain ⟨t, ht, he⟩ := s.report_eq f task code unit step k
  rw [he]
  refine ht.trans ?_
  unfold State.faultEffect
  simp only [hc]
  split
  · exact t.still_unfit _ _
  · exact .refl t

/-- R144: the task that stops stands at its step, and no memory has changed. -/
theorem State.stopTask_stops {s : State} {u : UnitId} {p : Fin 2} {y : Ctx} (x : Ctx) (fr : OpenFrame) (codes : List Nat)
    (h : s.ctx u p = some y) :
    s.bus.Still (s.stopTask u p x fr codes).bus ∧ (s.stopTask u p x fr codes).ctx u p = some { y with stopped := true } := by
  have hstop := s.stillStopped_stopCtx u p
  have hrep := (s.stopCtx u p).stillStopped_reports x.frame x.task (unitNo u) x.step (s.recovers u p x fr) codes
  exact ⟨hstop.bus.trans hrep.bus, hrep.stopped u p _ (State.ctx_stopCtx h) rfl⟩

-- Reports to a system (R89) -------------------------------------------------------------------------------------------------------------------

/-- A key set to a value that is listed leaves every other key alone, whether or not the list is canonical. -/
theorem sget_sset_listed {α : Type} [DecidableEq α] (d d' : α) (l : List (Nat × α)) (k k' : Nat) (v : α) (hv : v ≠ d)
    (hk : k' ≠ k) : sget d' (sset d l k v) k' = sget d' l k' := by
  induction l with
  | nil => simp [sset, sget, hv, hk.symm]
  | cons e t ih =>
    obtain ⟨j, w⟩ := e
    by_cases hkj : k = j
    · subst hkj
      simp [sset, sget, hv, hk.symm]
    · by_cases hlt : k < j
      · have hout : k' < k → ¬ j = k' ∧ k' < j := by omega
        by_cases hb : k' < k
        · simp [sset, sget, hv, hkj, hlt, hk.symm, hb, hout hb]
        · simp [sset, sget, hv, hkj, hlt, hk.symm, hb]
      · simp [sset, sget, hkj, hlt, ih]

/-- A counter that resets to zero advanced leaves every other word alone. -/
theorem Bus.reg_inc_other (b : Bus) (a a' : Nat) (hr : regReset a = 0) (ha : a' ≠ a) : (b.inc a).reg a' = b.reg a' := by
  have hpos : BitVec.ofNat 32 (Nat.min (b.reg a + 1) 0xFFFFFFFF) ≠ regReset a := by
    rw [hr]
    generalize hm : Nat.min (b.reg a + 1) 0xFFFFFFFF = m
    have hpos : 1 ≤ m := hm ▸ Nat.le_min.mpr ⟨by omega, by decide⟩
    have hle : m ≤ 0xFFFFFFFF := hm ▸ Nat.min_le_right _ _
    intro h
    have hmod : m % 2 ^ 32 = 0 := by simpa using congrArg BitVec.toNat h
    omega
  exact congrArg BitVec.toNat (sget_sset_listed _ _ b.regs a a' _ hpos ha)

/-- R26, R434: the ports' counters of packets sent and of requests refused reset to zero. -/
theorem kydCounters_reset : ∀ k < 4, regReset (kydB k + 0x100) = 0 ∧ regReset (kydB k + 0x120) = 0 := by decide

theorem Bus.count_inc_kyd (b : Bus) (k o n : Nat) (hr : regReset (kydB k + o) = 0) : (b.inc (kydB k + o)).count n = b.count n :=
  Bus.reg_inc_other b _ _ hr (by have := Nat.mod_lt n (show 16384 > 0 by decide); simp only [kydB, iodB, syncB]; omega)

theorem Bus.count_kydPost (b : Bus) (k : Nat) (o : Out) (n : Nat) (hk : k < 4) : (b.kydPost k o).count n = b.count n :=
  b.count_inc_kyd k 0x100 n (kydCounters_reset k hk).1

theorem Topo.hop_port_lt (t : Topo) (dst k d : Nat) (h : t.hop dst = some (k, d)) : k < 4 := by
  simp only [Topo.hop] at h
  split at h
  · split at h <;> (obtain ⟨rfl, -⟩ := Prod.mk.inj (Option.some.inj h); decide)
  · split at h
    · split at h <;> (obtain ⟨rfl, -⟩ := Prod.mk.inj (Option.some.inj h); decide)
    · cases h

theorem Bus.count_kydToken (b : Bus) (o : Out) (n : Nat) : (b.kydToken o).count n = b.count n := by
  refine List.foldlRecOn (motive := fun c : Bus => c.count n = b.count n) _ _ rfl fun c hc d _ => ?_
  split
  · exact hc
  · rename_i k j hhop
    have hk := Topo.hop_port_lt _ _ _ _ hhop
    split
    · exact (c.count_kydPost k o n hk).trans hc
    · exact (c.count_inc_kyd k 0x120 n (kydCounters_reset k hk).2).trans hc

/-- A report to the system: every sync object's COUNT is as before too. -/
structure State.Reported (s t : State) : Prop where
  still : s.Still t
  counts : ∀ n, t.bus.count n = s.bus.count n

theorem State.Reported.refl (s : State) : s.Reported s := ⟨.refl s, fun _ => rfl⟩

theorem State.Reported.trans {s t r : State} (h : s.Reported t) (h' : t.Reported r) : s.Reported r :=
  ⟨h.still.trans h'.still, fun n => (h'.counts n).trans (h.counts n)⟩

theorem State.reported_token (s : State) (o : Out) : s.Reported (s.token o) := ⟨s.still_token o, fun n => s.bus.count_kydToken o n⟩

theorem State.reported_relayHist (s : State) (f : Nat) : s.Reported (s.relayHist f) := by
  unfold State.relayHist
  split
  · exact s.reported_token _
  · exact .refl s

theorem State.reported_relayLook (s : State) (f : Nat) : s.Reported (s.relayLook f) := by
  unfold State.relayLook
  split
  · exact s.reported_token _
  · exact .refl s

theorem State.reported_modFrame (s : State) (f : Nat) (g : OpenFrame → OpenFrame) :
    s.Reported { s with fseq := s.fseq.modFrame f g } := ⟨⟨.refl _, rfl⟩, fun _ => rfl⟩

theorem State.reported_tellFrame (n : Fin 32) (s : State) (x : OpenFrame) : s.Reported (s.tellFrame n x) := by
  unfold State.tellFrame
  extract_lets t1 m t2
  have h1 : s.Reported t1 := s.reported_modFrame x.frame _
  have h2 : m.Reported t2 := m.reported_modFrame x.frame _
  have hm : s.Reported m := by
    dsimp only [m]
    split
    · exact .refl s
    · refine h1.trans ?_
      split
      · exact t1.reported_relayHist _
      · exact t1.reported_token _
  refine hm.trans ?_
  split
  · exact .refl m
  · refine h2.trans ?_
    split
    · exact t2.reported_relayLook _
    · exact t2.reported_token _

theorem State.reported_tellSystem (s : State) : s.Reported s.tellSystem := by
  unfold State.tellSystem
  split
  · exact List.foldlRecOn (motive := s.Reported) _ _ (.refl s) fun t ht x _ => ht.trans (t.reported_tellFrame _ x)
  · exact .refl s

-- Accesses that only read (R10 to R14, R85) ----------------------------------------------------------------------------------------------------

theorem State.still_readEffect (s : State) (l : RegLoc) (a k : Nat) : s.Still (s.readEffect l a k) := by
  unfold State.readEffect
  extract_lets t
  have ht : s.Still t := by
    dsimp only [t]
    split
    · exact ⟨⟨rfl, rfl⟩, rfl⟩
    · exact .refl s
  refine ht.trans ?_
  split
  · exact ⟨⟨rfl, rfl⟩, rfl⟩
  · split
    · exact ⟨.refl _, rfl⟩
    · exact .refl t

theorem State.still_readWide (s : State) (r : Requester) (l : RegLoc) (a : Nat) : s.Still (s.readWide r l a).2 := by
  unfold State.readWide
  split
  · split
    · exact ⟨.refl _, rfl⟩
    · exact s.still_readEffect l a 0
  · exact (s.still_readEffect l a 0).trans ⟨.refl _, rfl⟩

theorem State.still_readWord (s : State) (r : Requester) (a k : Nat) : s.Still (s.readWord r a k).2 := by
  unfold State.readWord
  split
  · exact ⟨⟨rfl, rfl⟩, rfl⟩
  · split
    · exact s.still_readWide _ _ _
    · exact s.still_readEffect _ _ _

/-- The access reads: a register word, a part of one, or HBM. -/
def Late.reads : Late → Prop
  | .read _ _ => True
  | .part _ none => True
  | .hbm _ _ => True
  | _ => False

theorem Late.reads_of_nil {l : List Late} (h : l = []) : ∀ a ∈ l, a.reads := by simp [h]

theorem Bus.reads_of_mem_regReads (b : Bus) (q : Requester) (a n : Nat) : ∀ l ∈ b.regReads q a n, l.reads := by
  intro l hl
  unfold Bus.regReads at hl
  split at hl
  · cases hl
  · split at hl
    · obtain ⟨x, -, rfl⟩ := List.mem_map.mp hl
      split <;> trivial
    · rw [List.mem_singleton.mp hl]
      trivial
    · cases hl

theorem State.still_perform (o : Option (UnitId × Fin 2)) (s : State) (l : Late) (h : l.reads) : s.Still (s.perform o l) := by
  cases l with
  | read r a => exact s.still_readWord r a 0
  | part a v =>
    cases v with
    | none => exact ⟨⟨rfl, rfl⟩, rfl⟩
    | some _ => exact h.elim
  | hbm a n => exact ⟨s.bus.still_hcAccess a n, rfl⟩
  | _ => exact h.elim

/-- A command that left reads alone changes no memory and no context when they are performed. -/
theorem State.settle_reads (o : Option (UnitId × Fin 2)) (n : Nat) (s : State) (h : ∀ l ∈ s.bus.late, l.reads) :
    (s.settle o (n + 1)).bus.mem = s.bus.mem ∧ (s.settle o (n + 1)).fseq.ctxs = s.fseq.ctxs := by
  by_cases hl : s.bus.late = []
  · rw [State.settle_done _ _ _ hl]
    exact ⟨rfl, rfl⟩
  · have hfold : State.Still { s with bus := { s.bus with late := [] } }
        (s.bus.late.foldl (fun s l => s.perform o l) { s with bus := { s.bus with late := [] } }) :=
      List.foldlRecOn (motive := State.Still { s with bus := { s.bus with late := [] } }) _ _ (.refl _)
        fun t ht l hm => ht.trans (t.still_perform o l (h l hm))
    rw [State.settle, if_neg hl, State.settle_done _ _ _ hfold.bus.late]
    exact ⟨hfold.bus.mem, hfold.ctxs⟩

/-- The reads that a step takes: no memory and no context changes, and what it adds to the accesses left is reads. -/
theorem State.takeReads_keeps (s : State) (e : StepEnv) (was : Bus) (rs : List (Nat × Nat)) :
    (s.takeReads e was rs).bus.mem = s.bus.mem ∧ (s.takeReads e was rs).fseq.ctxs = s.fseq.ctxs
    ∧ (s.takeReads e was rs).bus.late = s.bus.late ++ rs.flatMap (fun r => was.regReads e.req r.1 r.2) := by
  unfold State.takeReads
  dsimp only
  split
  · exact ⟨rfl, rfl, rfl⟩
  · exact ⟨rfl, rfl, rfl⟩

-- Signals and the end of a step (R114, R143) ----------------------------------------------------------------------------------------------------

theorem State.giveDue_eq {s : State} {u : UnitId} {p : Fin 2} {y : Ctx} {sigs : List SignalEntry} {n : Nat} (h : s.ctx u p = some y)
    (hd : y.due = some (sigs, n)) : s.giveDue u p
      = (s.onBus (fun b => doSignals b y.frame 1 sigs)).setCtx u p { y with step := n, due := none, told := [] } := by
  simp only [State.giveDue, h, hd]

theorem State.reported_endStep (s : State) (u : UnitId) (p : Fin 2) : (s.giveDue u p).Reported (s.endStep u p) := by
  unfold State.endStep
  cases u with
  | bse q => exact State.reported_tellSystem _
  | _ => exact .refl _

/-- R114, R143: the signals due are given, and the list has moved on; memory and the accesses left stand. -/
theorem State.endStep_gives {s : State} {u : UnitId} {p : Fin 2} {y : Ctx} {sigs : List SignalEntry} {n : Nat} (h : s.ctx u p = some y)
    (hd : y.due = some (sigs, n)) :
    (s.endStep u p).ctx u p = some { y with step := n, due := none, told := [] }
    ∧ (∀ o, (s.endStep u p).bus.count o = (doSignals s.bus y.frame 1 sigs).count o) ∧ s.bus.Still (s.endStep u p).bus := by
  have hr := s.reported_endStep u p
  rw [State.giveDue_eq h hd] at hr
  exact ⟨(hr.still.ctx u p).trans (State.ctx_setCtx _ u p _), hr.counts, (s.bus.still_doSignals _ _ _).trans hr.still.bus⟩

/-- R114, R143: a step performed that waits for no answer ends: its signals are given and its list has moved on. -/
theorem State.afterStep_gives {s : State} {u : UnitId} {p : Fin 2} {y : Ctx} {sigs : List SignalEntry} {n : Nat} (pre : List Nat)
    (h : s.ctx u p = some y) (hw : y.tags = []) (hd : y.due = some (sigs, n)) :
    (s.afterStep u p pre).ctx u p = some { y with step := n, due := none, told := [] }
    ∧ (∀ o, (s.afterStep u p pre).bus.count o = (doSignals (s.freeDrained u p pre).bus y.frame 1 sigs).count o)
    ∧ s.bus.Still (s.afterStep u p pre).bus := by
  have hfree := s.still_freeDrained u p pre
  have hctx := (hfree.ctx u p).trans h
  rw [State.afterStep_ends u p pre s y hctx (by rw [hd]; rfl) hw]
  obtain ⟨hend, hcounts, hstill⟩ := State.endStep_gives hctx hd
  exact ⟨hend, hcounts, hfree.bus.trans hstill⟩

-- Ready steps (R107, R131, R142) ----------------------------------------------------------------------------------------------------------------

section

variable {s : State} {op : Nat} {u : UnitId} {p : Fin 2} {x : Ctx} {fr : OpenFrame} {d : StepD}


/-- A context that may issue stands in its unit, with no signals held back. -/
theorem State.ctx_of_live (h : s.live u p = some (x, fr)) : s.ctx u p = some x ∧ x.due = none := by
  unfold State.live at h
  split at h
  · cases h
  · rename_i y hy
    split at h
    · cases h
    · split at h
      · cases h
      · rename_i hno
        obtain ⟨rfl, -⟩ := Prod.mk.inj (Option.some.inj h)
        refine ⟨hy, ?_⟩
        simp only [Bool.or_eq_true, not_or] at hno
        obtain ⟨⟨-, hdue⟩, -⟩ := hno
        simpa using hdue

theorem State.up.late_nil (h : s.up) : s.bus.late = [] := h.2.2

theorem State.readyStep.up (h : s.readyStep u p x fr d) : s.up := h.1

theorem State.readyStep.live (h : s.readyStep u p x fr d) : s.live u p = some (x, fr) := h.2.1

theorem State.readyControl.readyStep (h : s.readyControl op u p x fr d) : s.readyStep u p x fr d := h.1

theorem State.startTok_starts (h : s.ctx u p = some x) :
    (s.startTok u p x).ctx u p = some { x with started := true } ∧ s.bus.Still (s.startTok u p x).bus := by
  unfold State.startTok
  by_cases hs : x.started = true
  · rw [if_pos hs, h, ← hs]
    exact ⟨rfl, .refl _⟩
  · rw [if_neg hs]
    dsimp only
    split
    · exact ⟨s.ctx_setCtx u p _, ⟨rfl, rfl⟩⟩
    · exact ⟨s.ctx_setCtx u p _, ⟨rfl, rfl⟩⟩

variable (s u p x) in
/-- R359: the START token is an output: nothing else on the bus changes. -/
theorem State.startTok_bus : (s.startTok u p x).bus = { s.bus with out := (s.startTok u p x).bus.out } := by
  unfold State.startTok
  split
  · rfl
  · dsimp only
    split <;> rfl

variable (s u p x) in
theorem State.startTok_reg (a : Nat) : (s.startTok u p x).bus.reg a = s.bus.reg a := by
  rw [State.startTok_bus]
  rfl

variable (s u p x) in
theorem State.startTok_fetch (a n : Nat) : (s.startTok u p x).bus.fetch a n = s.bus.fetch a n := by
  rw [State.startTok_bus]
  rfl

/-- R107, R142: a ready step that the command runs issues. -/
theorem runStep_ready {o : UnitOp} (hr : s.readyStep u p x fr d) (hs : o.sel d = true) (ho : o.ready (stepEnv u x fr d) s = true) :
    runStep u p o s = issueStep o (stepEnv u x fr d) p (s.startTok u p x) := by
  obtain ⟨hu, hlive, hfetch, hwaits, hmay, hstale⟩ := hr
  rw [runStep, State.main_runs s _ hu.1]
  simp only [hlive, hfetch, hs, hwaits, hmay, ho, hstale, Bool.true_eq_false, or_self, if_false]

/-- R133: a ready control step has its effect. -/
theorem runControl_ready (eff : StepEnv → State → State) (hr : s.readyControl op u p x fr d) :
    runControl u p op eff s = eff (stepEnv u { x with started := true } fr d) (s.startTok u p x) := by
  obtain ⟨⟨hu, hlive, hfetch, hwaits, hmay, hstale⟩, hunit, hop⟩ := hr
  rw [runControl, State.main_runs s _ hu.1]
  simp only [hlive, hfetch, hunit, hop, hwaits, hmay, hstale, Bool.true_eq_false, or_self, if_false, ne_eq, not_true_eq_false]

end

/-- R129: the step is not one of zero shape. -/
theorem not_zeroShape {o : UnitOp} {e : StepEnv} (h : e.dim 0 ≠ 0 ∨ o.runsAtZero = true) :
    ¬(e.dim 0 = 0 ∧ o.runsAtZero = false) := by
  rintro ⟨h0, h1⟩
  rcases h with h | h
  · exact h h0
  · exact absurd h (by simp [h1])

/-- R101: a step whose operands fail a check stops its task, its faults counted. -/
theorem issueStep_faulty {o : UnitOp} {e : StepEnv} {s : State} (p : Fin 2) (hp : o.pre e s = [])
    (hz : e.dim 0 ≠ 0 ∨ o.runsAtZero = true) (hf : issueFaults e (o.accs e s) ≠ []) :
    issueStep o e p s = (s.onBus (fun b => (issueFaults e (o.accs e s)).foldl (fun b c => countIssueFault b (unitUm e.u) c) b)).stopTask
      e.u p e.x e.fr (issueFaults e (o.accs e s)) := by
  have hz' := not_zeroShape hz
  simp only [issueStep, hp, ne_eq, not_true_eq_false, if_false, if_neg hz', if_pos hf]

/-- A step command whose run leaves reads alone, and a context with no signals due, ends where its run does but for what the reads and the
drained accumulators leave. -/
theorem taskStep_undue {u : UnitId} {p : Fin 2} {run : State → Host.Outcome State Fault Refusal} {s t : State} {x y : Ctx}
    {fr : OpenFrame} (h : s.live u p = some (x, fr)) (hr : run (s.seen u) = .next t)
    (hl : ∀ l ∈ t.bus.late, l.reads) (hy : t.ctx u p = some y)
    (hd : y.due = none) : ∃ r, taskStep u p run s = .next r ∧ r.bus.mem = t.bus.mem ∧ r.ctx u p = some y := by
  refine ⟨_, taskStep_runs u p run s t x fr h hr, ?_⟩
  generalize ht : t.onBus (fun b => { b with view := s.bus.view }) = t'
  obtain ⟨hmem, hctxs⟩ := State.settle_reads (some (u, p)) 3 t' (by rw [← ht]; exact hl)
  have hfree := (t'.settle (some (u, p)) 4).still_freeDrained u p (x.tags ++ x.owed)
  have hctx : ((t'.settle (some (u, p)) 4).freeDrained u p (x.tags ++ x.owed)).ctx u p = some y := by
    rw [hfree.ctx, State.ctx, hctxs, ← ht]
    exact hy
  rw [State.afterStep_waits u p _ _ y hctx (.inl hd)]
  refine ⟨hfree.bus.mem.trans (hmem.trans ?_), hctx⟩
  rw [← ht]
  rfl

end Sys2Proof.Machine
end

section
/-! SUPPORT. CLAIM and LOAD_DIM: what a ready one leaves, and the statement about them. -/

namespace Sys2Proof.Machine

-- CLAIM (R107) ------------------------------------------------------------------------------------------------------------------------------

theorem doSignals_disabled (b : Bus) (f k : Nat) (l : List SignalEntry) (h : ∀ e ∈ l, e.en = false) : doSignals b f k l = b := by
  refine List.foldlRecOn (motive := (· = b)) l _ rfl fun c hc e he => ?_
  rw [h e he]
  exact hc

/-- R133: a claim's skip depends on the list and on the steps as they are fetched alone. -/
theorem afterMatch_congr (b c : Bus) (x y : Ctx) (he : y.entry = x.entry) (hb : ∀ a n, c.fetch a n = b.fetch a n)
    (hr : ∀ a, c.reg a = b.reg a) (fuel k i : Nat) : afterMatch c y fuel k i = afterMatch b x fuel k i := by
  have haddr : ∀ i, stepAddr c y i = stepAddr b x i := fun i => by rw [stepAddr, stepAddr, Bus.reg64, Bus.reg64, hr, hr, he]
  induction fuel generalizing k i with
  | zero => rfl
  | succ fuel ih => simp only [afterMatch, he, haddr, hb, ih]

/-- R105: a FETCH_ADD of a WORK object that is not exhausted gets its COUNT and EPOCH. -/
theorem Bus.fetchAdd_taken (b : Bus) (n k : Nat) (hk : b.kind n = 2) (hr : b.reached n = false) :
    b.fetchAdd n k = (b.setCount n ((b.count n + k) % 2 ^ 32), some (b.count n, b.epoch n)) := by
  simp [Bus.fetchAdd, hk, hr]

theorem Bus.fetchAdd_exhausted (b : Bus) (n k : Nat) (hk : b.kind n = 2) (hr : b.reached n = true) : b.fetchAdd n k = (b, none) := by
  simp [Bus.fetchAdd, hk, hr]

/-- The claim register that a CLAIM fills. -/
def claimReg (x : Ctx) (fr : OpenFrame) (d : StepD) : Nat :=
  resolveDim fr { x with started := true } (d.dims.getD 1 0) (d.sels.getD 1 0) % 4

/-- The context after a CLAIM that got `old` COUNT and EPOCH of object `o`, or, exhausted, goes on at step `skip`. -/
def claimCtx (x : Ctx) (fr : OpenFrame) (d : StepD) (o skip : Nat) : Option (Nat × Nat) → Ctx
  | none => { x with started := true, step := skip, claims := adel x.claims (claimReg x fr d) }
  | some (old, ep) => { x with
      started := true, step := nextStep x d,
      loops := { start := x.step, count := 0, ctr := 0, claim := some (claimReg x fr d) } :: x.loops,
      claims := aset x.claims (claimReg x fr d) { object := o, old := BitVec.ofNat 32 old, epoch := ep, step := x.step } }

/-- R107, R133: a ready CLAIM outside the loop it opened is the FETCH_ADD of its object, and its context's move. -/
theorem exec_claim {s : State} {u : UnitId} {p : Fin 2} {x : Ctx} {fr : OpenFrame} {d : StepD} {sg : SignalEntry} {rest : List SignalEntry}
    (hr : s.readyControl 3 u p x fr d) (hsg : d.signals = sg :: rest) (hrest : ∀ e ∈ rest, e.en = false)
    (hloops : ∀ l ∈ x.loops, l.start ≠ x.step) :
    exec (.claim u p) s = .next (State.setCtx
      { s.startTok u p x with bus := ((s.startTok u p x).bus.fetchAdd (parObj sg.parity sg.object x.frame) 1).1 } u p
      (claimCtx x fr d (parObj sg.parity sg.object x.frame) (afterMatch s.bus x x.entry.stepCount 0 (nextStep x d))
        ((s.startTok u p x).bus.fetchAdd (parObj sg.parity sg.object x.frame) 1).2)) := by
  have hskip := afterMatch_congr s.bus (s.startTok u p x).bus x { x with started := true } rfl (s.startTok_fetch u p x)
    (s.startTok_reg u p x) x.entry.stepCount 0 (nextStep x d)
  show Host.Outcome.next (runControl u p 3 _ s) = _
  rw [runControl_ready _ hr, ← hskip]
  simp only [stepEnv, StepEnv.control, StepEnv.after, StepEnv.dim, hsg, List.headD_cons, List.drop_succ_cons, List.drop_zero, State.onBus,
    doSignals_disabled _ _ _ _ hrest]
  generalize (s.startTok u p x).bus.fetchAdd (parObj sg.parity sg.object x.frame) 1 = got
  obtain ⟨b, old⟩ := got
  cases hl : x.loops with
  | nil => cases old <;> simp only [claimCtx, claimReg, hl] <;> rfl
  | cons l ls =>
    have hout : ¬ l.start = x.step := hloops l (by simp [hl])
    cases old <;> simp only [claimCtx, claimReg, hl, hout, false_and, decide_false, Bool.false_eq_true, if_false] <;> rfl

section

variable {s : State} {u : UnitId} {p : Fin 2} {x : Ctx} {fr : OpenFrame} {d : StepD} {sg : SignalEntry} {rest : List SignalEntry}
  (hr : s.readyControl 3 u p x fr d) (hsg : d.signals = sg :: rest) (hrest : ∀ e ∈ rest, e.en = false)
  (hloops : ∀ l ∈ x.loops, l.start ≠ x.step)
include hr hsg hrest hloops

theorem claim_takes {o : Nat} (ho : o = parObj sg.parity sg.object x.frame) (hk : s.bus.kind o = 2) (hn : s.bus.reached o = false) :
    Completes (.claim u p) s fun t =>
      t.bus.count o = (s.bus.count o + 1) % 2 ^ 32 ∧ t.bus.epoch o = s.bus.epoch o ∧ SameMem s t
      ∧ SameRegsBut s t [syncB o, syncB o + 8]
      ∧ t.ctx u p = some (claimCtx x fr d o 0 (some (s.bus.count o, s.bus.epoch o))) := by
  have hreg := s.startTok_reg u p x
  have hepoch : (s.startTok u p x).bus.epoch o = s.bus.epoch o := congrArg (bits · 7 0) (hreg _)
  have hw : RegFile.wf (s.startTok u p x).bus.regs = true := by
    rw [s.startTok_bus u p x]
    exact hr.readyStep.up.regs_wf
  have hkind : (s.startTok u p x).bus.kind o = s.bus.kind o := congrArg (bits · 9 8) (hreg _)
  have hreached : (s.startTok u p x).bus.reached o = s.bus.reached o := Bus.reached_congr (hreg _) (hreg _)
  have hstill := (State.startTok_starts (State.ctx_of_live hr.readyStep.live).1).2.trans
    ((s.startTok u p x).bus.still_setCount o ((s.bus.count o + 1) % 2 ^ 32))
  have hgot : (s.startTok u p x).bus.fetchAdd o 1
      = ((s.startTok u p x).bus.setCount o ((s.bus.count o + 1) % 2 ^ 32), some (s.bus.count o, s.bus.epoch o)) := by
    rw [Bus.fetchAdd_taken _ o 1 (hkind.trans hk) (hreached.trans hn), hepoch]
    rw [show (s.startTok u p x).bus.count o = s.bus.count o from hreg _]
  have hexec := exec_claim hr hsg hrest hloops
  rw [← ho, hgot] at hexec
  refine ⟨_, hexec, ?_, ?_, sameMem_of_mem hstill.mem, fun a ha => ?_, State.ctx_setCtx _ u p _⟩
  · exact (Bus.count_setCount _ o _ hw).trans (Nat.mod_mod _ _)
  · exact (Bus.epoch_setCount _ o _ hw).trans hepoch
  · simp only [List.mem_cons, List.not_mem_nil, or_false, not_or] at ha
    refine (Bus.reg_setCount _ o _ hw a).trans ?_
    rw [if_neg ha.2, if_neg ha.1, hreg]

theorem claim_skips {o : Nat} (ho : o = parObj sg.parity sg.object x.frame) (hk : s.bus.kind o = 2) (hn : s.bus.reached o = true) :
    Completes (.claim u p) s fun t =>
      SameMem s t ∧ SameRegsBut s t []
      ∧ t.ctx u p = some (claimCtx x fr d o (afterMatch s.bus x x.entry.stepCount 0 (nextStep x d)) none) := by
  have hreg := s.startTok_reg u p x
  have hkind : (s.startTok u p x).bus.kind o = s.bus.kind o := congrArg (bits · 9 8) (hreg _)
  have hreached : (s.startTok u p x).bus.reached o = s.bus.reached o := Bus.reached_congr (hreg _) (hreg _)
  have hstill := (State.startTok_starts (State.ctx_of_live hr.readyStep.live).1).2
  have hgot : (s.startTok u p x).bus.fetchAdd o 1 = ((s.startTok u p x).bus, none) :=
    Bus.fetchAdd_exhausted _ o 1 (hkind.trans hk) (hreached.trans hn)
  have hexec := exec_claim hr hsg hrest hloops
  rw [← ho, hgot] at hexec
  exact ⟨_, hexec, sameMem_of_mem hstill.mem, fun a _ => hreg a, State.ctx_setCtx _ u p _⟩

end

-- LOAD_DIM (R133) ---------------------------------------------------------------------------------------------------------------------------

theorem Bus.still_countDyn (s : State) (b : Bus) (i : Nat) (strict : Bool) (dyn : StepDyn) : b.Still (countDyn s b i strict dyn) := by
  unfold countDyn
  extract_lets c c'
  have hc : b.Still c := by
    dsimp only [c]
    split
    · exact ⟨rfl, rfl⟩
    · exact .refl b
  have hc' : c.Still c' := by
    dsimp only [c']
    split
    · exact .refl c
    · exact ⟨rfl, rfl⟩
  exact (hc.trans hc').trans ⟨rfl, rfl⟩

theorem State.taint_ctx {s : State} {u : UnitId} {p : Fin 2} {y : Ctx} (v : Bool) (h : s.ctx u p = some y) :
    (s.taint u p v).ctx u p = some { y with taint := y.taint || v } ∧ (s.taint u p v).bus = s.bus := by
  simp only [State.taint, h]
  cases v with
  | false => simp [h]
  | true => simp [State.ctx_setCtx]

/-- R96: what a conflict at a narrow port leaves: memory and the accesses left, and the context at its step. -/
theorem State.narrowConflict_keeps {s : State} {e : StepEnv} {u : UnitId} {p : Fin 2} {y : Ctx} (dyn : StepDyn) (hu : e.u = u)
    (h : s.ctx u p = some y) :
    s.bus.Still (s.narrowConflict e p dyn).bus ∧ ∃ v, (s.narrowConflict e p dyn).ctx u p = some { y with taint := v } := by
  subst hu
  unfold State.narrowConflict
  split
  · rename_i i hi
    extract_lets t
    have hcount := s.still_onBus (fun b => countDyn s b i.val e.x.entry.strict { arbStall := dyn.arbStall, conflicts := dyn.conflicts })
      (Bus.still_countDyn _ _ _ _ _)
    obtain ⟨hctx, hbus⟩ := State.taint_ctx (conflictHit e dyn) ((hcount.ctx e.u p).trans h)
    have ht : s.bus.Still t.bus := hcount.bus.trans (hbus ▸ .refl _)
    split
    · have hrep := t.still_report_continues e.x.frame e.x.task 0x10 (unitNo e.u) e.x.step none rfl
      exact ⟨ht.trans hrep.bus, _, (hrep.ctx e.u p).trans hctx⟩
    · exact ⟨ht, _, hctx⟩
  · exact ⟨.refl _, y.taint, h⟩

/-- R133: the access of LOAD_DIM. -/
def dimAcc : Acc := { opnd := 0, write := false, narrow := true, ranges := [(0, 4)] }

/-- The state that LOAD_DIM reads its word in. -/
def State.dimState (v : State) (u : UnitId) (p : Fin 2) (x : Ctx) (e : StepEnv) (dyn : StepDyn) : State :=
  ((v.startTok u p x).onBus (·.nextFree)).narrowConflict e p dyn

/-- The value that LOAD_DIM reads. -/
def dimValue (e : StepEnv) (g : Got) : Nat := leNat g.bytes % 2 ^ e.dim 2

/-- R133, R96: the context after a LOAD_DIM. -/
def dimCtx (x : Ctx) (d : StepD) (e : StepEnv) (g : Got) (dyn : StepDyn) : Ctx :=
  { x with started := true, step := nextStep x d, loaded := modAt (fun _ => dimValue e g) x.loaded (e.dim 1 % 4),
           taint := x.taint || conflictHit e dyn }

section

variable {v : State} {u : UnitId} {p : Fin 2} {x : Ctx} {fr : OpenFrame} {d : StepD} {e : StepEnv} {g : Got} (dyn : StepDyn)
  (he : e = stepEnv u { x with started := true } fr d) (hg : g = (v.dimState u p x e dyn).bus.fetch (e.base 0) 4)
  (hr : v.readyControl 5 u p x fr d) (hf : issueFaults e [dimAcc] = []) (hb : g.busErr = false) (hp : g.poisoned = false)
include he hg hr hf hb hp

theorem runLoadDim_ready : runLoadDim u p dyn v = .next
    (let c := v.dimState u p x e dyn
     let t := c.takeReads e c.bus (e.readRanges [dimAcc])
     if x.entry.loadedMax.getD (e.dim 1 % 4) 0 < dimValue e g then t.stopTask u p { x with started := true } fr [0x0B]
     else e.control p 1 d.signals (dimCtx x d e g dyn) t) := by
  have hx : e.x = { x with started := true } := by rw [he]; rfl
  have hfr : e.fr = fr := by rw [he]; rfl
  have hd : e.d = d := by rw [he]; rfl
  rw [runLoadDim, runControl_ready _ hr, ← he]
  unfold dimAcc at hf
  unfold State.dimState at hg
  simp only [hf, ne_eq, not_true_eq_false, if_false, ← hg, hb, hp, Bool.false_eq_true, dimAcc, State.dimState, dimCtx, dimValue,
    StepEnv.after, nextStep, hx, hfr, hd, Bool.or_false]
  rfl

omit hg hf hb hp in
/-- What LOAD_DIM's run stands on once its read is taken: memory as before, only reads left, and the context at its step. -/
theorem dimState_keeps :
    let t := (v.dimState u p x e dyn).takeReads e (v.dimState u p x e dyn).bus (e.readRanges [dimAcc])
    t.bus.mem = v.bus.mem ∧ (∀ l ∈ t.bus.late, l.reads) ∧ ∃ w, t.ctx u p = some { x with started := true, taint := w } := by
  intro t
  have hu : e.u = u := by rw [he]; rfl
  obtain ⟨hctx, hstart⟩ := State.startTok_starts (State.ctx_of_live hr.readyStep.live).1
  have hfree : (v.startTok u p x).Still ((v.startTok u p x).onBus (·.nextFree)) := ⟨⟨rfl, rfl⟩, rfl⟩
  obtain ⟨hstill, w, hw⟩ := State.narrowConflict_keeps dyn hu ((hfree.ctx u p).trans hctx)
  obtain ⟨hmem, hctxs, hlate⟩ := (v.dimState u p x e dyn).takeReads_keeps e (v.dimState u p x e dyn).bus (e.readRanges [dimAcc])
  have hbefore : v.bus.Still (v.dimState u p x e dyn).bus := (hstart.trans hfree.bus).trans hstill
  refine ⟨hmem.trans hbefore.mem, fun l hl => ?_, w, ?_⟩
  · rw [hlate, hbefore.late, hr.readyStep.up.late_nil, List.nil_append] at hl
    obtain ⟨r, -, hr⟩ := List.mem_flatMap.mp hl
    exact Bus.reads_of_mem_regReads _ _ _ _ l hr
  · rw [State.ctx, hctxs]
    exact hw

end

section

variable {s : State} {u : UnitId} {p : Fin 2} {x : Ctx} {fr : OpenFrame} {d : StepD} {e : StepEnv} {g : Got} (dyn : StepDyn)
  (he : e = stepEnv u { x with started := true } fr d) (hg : g = ((s.seen u).dimState u p x e dyn).bus.fetch (e.base 0) 4)
  (hr : (s.seen u).readyControl 5 u p x fr d) (hf : issueFaults e [dimAcc] = []) (hb : g.busErr = false) (hp : g.poisoned = false)
include he hg hr hf hb hp

theorem loadDim_loads (hv : dimValue e g ≤ x.entry.loadedMax.getD (e.dim 1 % 4) 0) :
    Completes (.loadDim u ⟨p, dyn⟩) s fun t => t.ctx u p = some (dimCtx x d e g dyn) ∧ SameMem s t := by
  have hrun := runLoadDim_ready dyn he hg hr hf hb hp
  obtain ⟨hmem, hlate, -⟩ := dimState_keeps dyn he hr
  generalize ht : State.takeReads _ e _ _ = t at hmem hlate
  have hu : e.u = u := by rw [he]; rfl
  have hsig := t.bus.still_doSignals e.x.frame 1 d.signals
  simp only [ht, if_neg (Nat.not_lt.mpr hv)] at hrun
  obtain ⟨r, hexec, hrmem, hrctx⟩ := taskStep_undue (s := s) (y := dimCtx x d e g dyn) hr.readyStep.live hrun
    (fun l hl => hlate l (hsig.late ▸ hl)) (by rw [StepEnv.control, hu, State.ctx_setCtx]) (State.ctx_of_live hr.readyStep.live).2
  exact ⟨r, hexec, hrctx, sameMem_of_mem (hrmem.trans (hsig.mem.trans hmem))⟩

theorem loadDim_stops (hv : x.entry.loadedMax.getD (e.dim 1 % 4) 0 < dimValue e g) :
    Completes (.loadDim u ⟨p, dyn⟩) s fun t =>
      (t.ctx u p).map (fun y => (y.stopped, y.step)) = some (true, x.step) ∧ SameMem s t := by
  have hrun := runLoadDim_ready dyn he hg hr hf hb hp
  obtain ⟨hmem, hlate, w, hctx⟩ := dimState_keeps dyn he hr
  generalize ht : State.takeReads _ e _ _ = t at hmem hlate hctx
  obtain ⟨hstill, hstop⟩ := State.stopTask_stops { x with started := true } fr [0x0B] hctx
  simp only [ht, if_pos hv] at hrun
  obtain ⟨r, hexec, hrmem, hrctx⟩ := taskStep_undue (s := s) hr.readyStep.live hrun (fun l hl => hlate l (hstill.late ▸ hl)) hstop
    (State.ctx_of_live hr.readyStep.live).2
  exact ⟨r, hexec, by rw [hrctx]; rfl, sameMem_of_mem (hrmem.trans (hstill.mem.trans hmem))⟩

end

/-- Settles O22: a CLAIM is the FETCH_ADD of its object, and a LOAD_DIM leaves nothing but reads to be performed. -/
theorem claimsAndLoadedDimsAreTaken : Obligations.ClaimsAndLoadedDimsAreTaken := by
  unfold Obligations.ClaimsAndLoadedDimsAreTaken
  refine ⟨fun s u p x fr d sg rest hr hsg hrest hloops => ?_, fun s u p x fr d dyn => ?_⟩
  · exact ⟨claim_takes hr hsg hrest hloops rfl, claim_skips hr hsg hrest hloops rfl⟩
  · intro e g v hr hf hb hp
    exact ⟨loadDim_loads dyn rfl rfl hr hf hb hp, loadDim_stops dyn rfl rfl hr hf hb hp⟩

end Sys2Proof.Machine
end

section
/-! SUPPORT. Steps that run through a unit's data path: what a ready one comes to, for every operation at once, and the statements about
those that run and those that write nothing. -/

namespace Sys2Proof.Machine

-- The operations and their commands (R127) -----------------------------------------------------------------------------------------------------

/-- The command performs a ready step of unit `u` by `o`, on the state as the unit sees it. -/
def StepCommand (p : Fin 2) (c : Instr) (o : UnitOp) (u : UnitId) : Prop :=
  ∀ s x fr d, (s.seen u).readyStep u p x fr d → o.sel d = true → o.ready (stepEnv u x fr d) (s.seen u) = true →
    exec c s = taskStep u p (fun v => .next (runStep u p o v)) s

/-- R114: a step command of a ready step: what its run leaves, its accesses performed, and what follows the step. -/
theorem StepCommand.exec_eq {p : Fin 2} {c : Instr} {o : UnitOp} {u : UnitId} {s t : State} {x : Ctx} {fr : OpenFrame} {d : StepD}
    (hc : StepCommand p c o u) (hr : (s.seen u).readyStep u p x fr d) (hs : o.sel d = true)
    (ho : o.ready (stepEnv u x fr d) (s.seen u) = true) (hrun : runStep u p o (s.seen u) = t) :
    exec c s = .next (((t.onBus (fun b => { b with view := s.bus.view })).settle (some (u, p)) 4).afterStep u p (x.tags ++ x.owed)) :=
  (hc s x fr d hr hs ho).trans (taskStep_runs u p _ s t x fr hr.live (congrArg _ hrun))

/-- R252: an SM_BOXES that is ready finds its bank free, and counts no wait for it. -/
theorem countBankWait_ready {v : State} {p : Fin 2} {x : Ctx} {fr : OpenFrame} {d : StepD} (hr : v.readyStep .sme p x fr d)
    (ho : opSmBoxes.ready (stepEnv .sme x fr d) v = true) : (v.main fun v => v.countBankWait p) = v := by
  obtain ⟨hu, hlive, hfetch, -⟩ := hr
  have hfree : v.bankFree x.frame = true := by
    have h : (v.bus.flag smeB 0 && v.bankFree x.frame) = true := ho
    simp only [Bool.and_eq_true] at h
    exact h.2
  rw [State.main_runs _ _ hu.1]
  simp only [State.countBankWait, hlive, hfetch, hfree, Bool.true_eq_false, and_false, if_false]

theorem stepCommand_smBoxes (p : Fin 2) : StepCommand p (.smBoxes p) opSmBoxes .sme := by
  intro s x fr d hr _ ho
  have hbank := countBankWait_ready hr ho
  have hrun : runSmBoxes p (s.seen .sme) = .next (runStep .sme p opSmBoxes (s.seen .sme)) := by rw [runSmBoxes, hbank]
  have hlive : s.live .sme p = some (x, fr) := hr.live
  show taskStep .sme p (runSmBoxes p) s = _
  rw [taskStep_runs .sme p _ s _ x fr hlive hrun, taskStep_runs .sme p (fun v => .next (runStep .sme p opSmBoxes v)) s _ x fr hlive rfl]
  rfl

theorem stepCommand_of_exec {p : Fin 2} {c : Instr} {o : UnitOp} {u : UnitId}
    (h : ∀ s, exec c s = taskStep u p (fun v => .next (runStep u p o v)) s) : StepCommand p c o u := fun s _ _ _ _ _ _ => h s

/-- R127: each command of `stepUnits` performs its unit's ready step by its operation. -/
theorem stepCommand_stepUnits (i : Fin 32) (q : Fin 4) (g : Fin 8) (k : Fin 2) (c : Fin 64) (p : Fin 2) (dyn : StepDyn) :
    ∀ w ∈ stepUnits i q g k c p dyn, StepCommand p w.1 w.2.1 w.2.2 := by
  simp only [stepUnits, List.forall_mem_cons]
  iterate 35 refine ⟨stepCommand_of_exec fun _ => rfl, ?_⟩
  refine ⟨stepCommand_smBoxes p, ?_⟩
  iterate 8 refine ⟨stepCommand_of_exec fun _ => rfl, ?_⟩
  exact fun _ hw => absurd hw List.not_mem_nil

-- Steps that run (R101, R114, R143) ------------------------------------------------------------------------------------------------------------

/-- R101: a step that passes its checks, and meets no fault that stops it, is done: its faults are reported and its signals are due. -/
theorem issueStep_runs {o : UnitOp} {e : StepEnv} {s : State} {r : Done} (p : Fin 2) (hp : o.pre e s = [])
    (hz : e.dim 0 ≠ 0 ∨ o.runsAtZero = true) (hf : issueFaults e (o.accs e s) = []) (hrun : r = o.run e s)
    (hcodes : ∀ c ∈ r.codes, faultClass c ≠ .stop) (hsig : r.signals = true) :
    issueStep o e p s = (r.s.stepDone e.u p e.x e.d).reports e.x.frame e.x.task (unitNo e.u) e.x.step none r.codes := by
  have hz' : ¬(e.dim 0 = 0 ∧ o.runsAtZero = false) := not_zeroShape hz
  have hgo : ¬ (r.codes.any fun c => decide (faultClass c = .stop)) = true := by
    simpa using hcodes
  simp only [issueStep, hp, ne_eq, not_true_eq_false, if_false, if_neg hz', hf, runEffect, ← hrun, if_neg hgo, if_pos hsig]

theorem runsStep_of_stepCommand {c : Instr} {o : UnitOp} {u : UnitId} {p : Fin 2} (hc : StepCommand p c o u) (s : State) :
    RunsStep c s o u p := by
  intro x fr d r ⟨hr, hsel, hready, hpre, hzero, hfaults, hrun, hcodes, hsig⟩
  have hrun' : runStep u p o (s.seen u) = (r.s.stepDone u p x d).reports x.frame x.task (unitNo u) x.step none r.codes :=
    (runStep_ready hr hsel hready).trans (issueStep_runs p hpre hzero hfaults hrun hcodes hsig)
  refine ⟨_, hc.exec_eq hr hsel hready hrun', rfl, fun y hy htags hdue => ?_⟩
  obtain ⟨hend, hcounts, -⟩ := State.afterStep_gives (x.tags ++ x.owed) hy htags hdue
  exact ⟨hend, hcounts⟩

/-- Settles O23, for every operation at once: the run of a ready step is its data path with its signals due, and what follows gives
them. -/
theorem unitStepsRunAndSignal : Obligations.UnitStepsRunAndSignal := by
  unfold Obligations.UnitStepsRunAndSignal
  intro s i q g k c p dyn w hw
  exact runsStep_of_stepCommand (stepCommand_stepUnits i q g k c p dyn w hw) s

-- Steps that write nothing (R101, R129) --------------------------------------------------------------------------------------------------------

/-- R129: what an operation does for a step whose DIM0 is 0 changes no memory and no context, and leaves no access to be performed. -/
def UnitOp.ZeroStill (o : UnitOp) : Prop := ∀ e s, State.Still s (o.zero e s)

theorem State.still_passEnd (s : State) (f : Nat) : s.Still (s.passEnd f) := by
  unfold State.passEnd
  extract_lets t
  have ht : s.Still t := ⟨⟨rfl, rfl⟩, rfl⟩
  split
  · exact ht.trans (t.still_token _)
  · exact ht

theorem State.still_batchReady (s : State) (b : Batch) : s.Still (s.batchReady b) := by
  unfold State.batchReady
  extract_lets y t
  have ht : s.Still t := by
    dsimp only [t]
    split
    · split
      · exact .refl s
      · exact ⟨.refl _, rfl⟩
    · exact ⟨.refl _, rfl⟩
  exact ht.trans ⟨⟨rfl, rfl⟩, rfl⟩

theorem State.still_boxesZero (s : State) (f : Nat) : s.Still (s.boxesZero f) := (s.still_passEnd f).trans (State.still_batchReady _ _)

theorem State.still_restartCal (s : State) (f seq : Nat) : s.Still (s.restartCal f seq) := by
  unfold State.restartCal
  split
  · exact .refl s
  · exact ⟨⟨rfl, rfl⟩, rfl⟩

theorem State.still_accumulate_nil (s : State) (f : Nat) : s.Still (s.accumulate f []) := by
  have ht : s.Still (if s.fseq.rollback then s else s.restartCal f (s.calSeqOf f)) := by
    split
    · exact .refl s
    · exact s.still_restartCal _ _
  exact ht.trans ⟨.refl _, rfl⟩

theorem zeroStill_mmUnit (i : Nat) (p : Fin 2) (op : Nat) (dyn : StepDyn) : (mmUnit i p op dyn).ZeroStill := by
  intro e s
  show s.Still (mmZero i p e s)
  unfold mmZero
  split
  · exact ⟨⟨rfl, rfl⟩, rfl⟩
  · exact s.still_holdAcc i _

theorem zeroStill_of_eq {o : UnitOp} (h : ∀ e s, o.zero e s = s) : o.ZeroStill := fun e s => by rw [h]; exact .refl s

theorem zeroStill_stepUnits (i : Fin 32) (q : Fin 4) (g : Fin 8) (k : Fin 2) (c : Fin 64) (p : Fin 2) (dyn : StepDyn) :
    ∀ w ∈ stepUnits i q g k c p dyn, w.2.1.ZeroStill := by
  simp only [stepUnits, List.forall_mem_cons]
  iterate 14 refine ⟨zeroStill_of_eq fun _ _ => rfl, ?_⟩
  refine ⟨zeroStill_mmUnit i.val p 1 dyn, zeroStill_mmUnit i.val p 2 dyn, ?_⟩
  iterate 19 refine ⟨zeroStill_of_eq fun _ _ => rfl, ?_⟩
  refine ⟨fun e s => s.still_boxesZero e.x.frame, ?_⟩
  iterate 6 refine ⟨zeroStill_of_eq fun _ _ => rfl, ?_⟩
  refine ⟨fun e s => s.still_accumulate_nil e.x.frame, zeroStill_of_eq fun _ _ => rfl, ?_⟩
  exact fun _ hw => absurd hw List.not_mem_nil

/-- R129: a step whose resolved DIM0 is 0 accesses no memory, and its signals are due. -/
theorem issueStep_zero {o : UnitOp} {e : StepEnv} {s : State} (p : Fin 2) (hp : o.pre e s = []) (hz : e.dim 0 = 0)
    (hn : o.runsAtZero = false) : issueStep o e p s = (o.zero e s).stepDone e.u p e.x e.d := by
  simp only [issueStep, hp, ne_eq, not_true_eq_false, if_false, if_pos (And.intro hz hn)]

theorem State.stepDone_due {s : State} {u : UnitId} {p : Fin 2} {y : Ctx} (x : Ctx) (d : StepD) (h : s.ctx u p = some y) :
    (s.stepDone u p x d).ctx u p = some { y with due := some (d.signals, nextStep x d) } ∧ s.bus.Still (s.stepDone u p x d).bus := by
  rw [State.stepDone, h]
  exact ⟨s.ctx_setCtx u p _, .refl _⟩

theorem Bus.still_countIssueFault (b : Bus) (um code : Nat) : b.Still (countIssueFault b um code) := by
  unfold countIssueFault
  split
  all_goals exact ⟨rfl, rfl⟩

section

variable {c : Instr} {o : UnitOp} {u : UnitId} {p : Fin 2} {s : State} {x : Ctx} {fr : OpenFrame} {d : StepD} (hc : StepCommand p c o u)
  (hi : s.stepIssues o u p x fr d)
include hc hi

theorem faultyStep_stops (hz : (stepEnv u x fr d).dim 0 ≠ 0 ∨ o.runsAtZero = true)
    (hf : issueFaults (stepEnv u x fr d) (o.accs (stepEnv u x fr d) ((s.seen u).startTok u p x)) ≠ []) :
    Completes c s fun t => (t.ctx u p).map (fun y => (y.stopped, y.step)) = some (true, x.step) ∧ SameMem s t := by
  obtain ⟨hr, -, hsel, hready, hpre⟩ := hi
  obtain ⟨hctx, hdue⟩ := State.ctx_of_live hr.live
  obtain ⟨hstart, hstill⟩ := State.startTok_starts hctx
  have hissue := (runStep_ready hr hsel hready).trans (issueStep_faulty p hpre hz hf)
  generalize issueFaults _ _ = fs at hissue
  have hcount := ((s.seen u).startTok u p x).still_onBus (fun b => fs.foldl (fun b c => countIssueFault b (unitUm u) c) b)
    (List.foldlRecOn (motive := ((s.seen u).startTok u p x).bus.Still) _ _ (.refl _) fun b hb c _ => hb.trans (b.still_countIssueFault _ c))
  obtain ⟨hstop, hy⟩ := State.stopTask_stops x fr fs ((hcount.ctx u p).trans hstart)
  have hall := (hstill.trans hcount.bus).trans hstop
  obtain ⟨r, hexec, hmem, hrctx⟩ := taskStep_undue (run := fun v => .next (runStep u p o v)) (s := s) hr.live (congrArg _ hissue)
    (Late.reads_of_nil (hall.late.trans hr.up.late_nil)) hy hdue
  exact ⟨r, (hc s x fr d hr hsel hready).trans hexec, by rw [hrctx]; rfl, sameMem_of_mem (hmem.trans hall.mem)⟩

theorem zeroStep_passes (ho : o.ZeroStill) (hz : (stepEnv u x fr d).dim 0 = 0) (hn : o.runsAtZero = false) :
    Completes c s fun t => (t.ctx u p).map (·.step) = some (nextStep x d) ∧ SameMem s t := by
  obtain ⟨hr, htags, hsel, hready, hpre⟩ := hi
  obtain ⟨hctx, hdue⟩ := State.ctx_of_live hr.live
  obtain ⟨hstart, hstill⟩ := State.startTok_starts hctx
  have hzero := ho (stepEnv u x fr d) ((s.seen u).startTok u p x)
  have hissue := (runStep_ready hr hsel hready).trans (issueStep_zero p hpre hz hn)
  obtain ⟨hdone, hdoneStill⟩ := State.stepDone_due x d ((hzero.ctx u p).trans hstart)
  generalize ht : State.stepDone _ u p x d = t at hdone hdoneStill
  have hexec := hc.exec_eq hr hsel hready (hissue.trans ht)
  have hview : t.Still (t.onBus (fun b => { b with view := s.bus.view })) := ⟨⟨rfl, rfl⟩, rfl⟩
  have hall := ((hstill.trans hzero.bus).trans hdoneStill).trans hview.bus
  obtain ⟨hend, -, hafter⟩ := State.afterStep_gives (x.tags ++ x.owed) ((hview.ctx u p).trans hdone) htags rfl
  rw [State.settle_done _ _ _ (hall.late.trans hr.up.late_nil)] at hexec
  exact ⟨_, hexec, by rw [hend]; rfl, sameMem_of_mem (hafter.mem.trans hall.mem)⟩

end

/-- Settles O24: either way the step's run leaves nothing to be performed, so nothing but fault reports, or its signals, follows it. -/
theorem stepsThatFailTheirChecksWriteNothing : Obligations.StepsThatFailTheirChecksWriteNothing := by
  unfold Obligations.StepsThatFailTheirChecksWriteNothing
  intro s i q g k c p dyn w hw x fr d hi
  have hc := stepCommand_stepUnits i q g k c p dyn w hw
  exact ⟨faultyStep_stops hc hi, zeroStep_passes hc hi (zeroStill_stepUnits i q g k c p dyn w hw)⟩

end Sys2Proof.Machine
end

section
/-! SUPPORT. The first fault of a frame, which every later report keeps (R144), and steps whose plan checks fail: the rulebook steps
that would fill a table more than half (R189). -/

namespace Sys2Proof.Machine

-- The first fault of a frame (R144) -------------------------------------------------------------------------------------------------------------

/-- R144: frame `f` is open, and the first fault logged for it is `code`. -/
structure FrameSeq.Faulted (q : FrameSeq) (f code : Nat) : Prop where
  isOpen : ∃ y ∈ q.openFrames, y.frame = f
  fault : ∀ y ∈ q.openFrames, y.frame = f → y.fault = some code

theorem FrameSeq.Faulted.congr {q r : FrameSeq} {f code : Nat} (h : q.Faulted f code) (he : r.openFrames = q.openFrames) :
    r.Faulted f code := ⟨he ▸ h.isOpen, he ▸ h.fault⟩

theorem FrameSeq.Faulted.frame_fault {q : FrameSeq} {f code : Nat} (h : q.Faulted f code) : (q.frame f).bind (·.fault) = some code := by
  obtain ⟨y, hy, hyf⟩ := h.isOpen
  cases hq : q.frame f with
  | none => exact absurd hyf (by simpa using List.find?_eq_none.mp hq y hy)
  | some z => exact h.fault z (List.mem_of_find?_eq_some hq) (by simpa using List.find?_some hq)

/-- After a change of frame `k` that keeps its number, `f` has the first fault `code` if every entry of it ends with that fault. -/
theorem FrameSeq.faulted_modFrame {q : FrameSeq} {f code k : Nat} {g : OpenFrame → OpenFrame} (ho : ∃ y ∈ q.openFrames, y.frame = f)
    (hg : ∀ y, y.frame = k → (g y).frame = k)
    (hf : ∀ y ∈ q.openFrames, y.frame = f → (if y.frame = k then g y else y).fault = some code) : (q.modFrame k g).Faulted f code := by
  have hframe : ∀ y : OpenFrame, (if y.frame = k then g y else y).frame = y.frame := by
    intro y
    split
    · rename_i hy
      rw [hg y hy, hy]
    · rfl
  obtain ⟨y, hy, hyf⟩ := ho
  refine ⟨⟨_, List.mem_map_of_mem hy, (hframe y).trans hyf⟩, fun z hz hzf => ?_⟩
  obtain ⟨w, hw, rfl⟩ := List.mem_map.mp hz
  exact hf w hw ((hframe w).symm.trans hzf)

theorem FrameSeq.Faulted.modFrame {q : FrameSeq} {f code k : Nat} {g : OpenFrame → OpenFrame} (h : q.Faulted f code)
    (hg : ∀ y, y.frame = k → (g y).frame = k) (hf : ∀ y, k = f → y.fault = some code → (g y).fault = some code) :
    (q.modFrame k g).Faulted f code := by
  refine FrameSeq.faulted_modFrame h.isOpen hg fun y hy hyf => ?_
  split
  · rename_i hk
    exact hf y (hk.symm.trans hyf) (h.fault y hy hyf)
  · exact h.fault y hy hyf

/-- R144: the first fault noted for a frame without one is its first, and later ones leave it. -/
theorem OpenFrame.note_fault (y : OpenFrame) (code : Nat) : (y.note code).fault = some (y.fault.getD code) := by
  unfold OpenFrame.note
  cases y.fault <;> rfl

theorem State.fseq_releaseAcc (s : State) (u : UnitId) (p : Fin 2) : (s.releaseAcc u p).fseq = s.fseq := by
  unfold State.releaseAcc
  split
  · split <;> rfl
  · rfl

theorem State.openFrames_stopCtx (s : State) (u : UnitId) (p : Fin 2) : (s.stopCtx u p).fseq.openFrames = s.fseq.openFrames := by
  unfold State.stopCtx
  split
  · rw [State.fseq_releaseAcc]
    rfl
  · rfl

theorem State.openFrames_startTok (s : State) (u : UnitId) (p : Fin 2) (x : Ctx) :
    (s.startTok u p x).fseq.openFrames = s.fseq.openFrames := by
  unfold State.startTok
  split
  · rfl
  · dsimp only
    split <;> rfl

theorem State.fseq_freeDrained (s : State) (u : UnitId) (p : Fin 2) (pre : List Nat) : (s.freeDrained u p pre).fseq = s.fseq := by
  unfold State.freeDrained
  cases u with
  | stn i =>
    dsimp only
    split
    · split
      all_goals split <;> rfl
    · rfl
  | _ => rfl

section

variable {s : State} {f code : Nat} (h : s.fseq.Faulted f code)
include h

theorem State.faulted_unfit (g c : Nat) : (s.unfit g c).fseq.Faulted f code :=
  h.modFrame (k := g) (g := fun x => { x with unfit := true }) (fun _ hy => hy) (fun _ _ hy => hy)

theorem State.faulted_degrade (g : Nat) : (s.degrade g).fseq.Faulted f code := by
  unfold State.degrade
  split
  · exact h
  · exact h.congr rfl

/-- R145: a frame abandoned keeps its first fault. -/
theorem State.faulted_abandonOne {x : OpenFrame} (hx : x.frame = f → x.fault = some code) : (s.abandonOne x).fseq.Faulted f code := by
  unfold State.abandonOne
  refine List.foldlRecOn (motive := fun t : State => t.fseq.Faulted f code) _ _ (State.faulted_unfit ?_ _ _)
    fun t ht c _ => ht.congr (t.openFrames_stopCtx _ _)
  refine FrameSeq.Faulted.congr (h.modFrame (k := x.frame) (g := fun _ => { x.note 0x23 with abandoned := true }) (fun _ _ => rfl)
    fun _ hk _ => ?_) rfl
  exact (x.note_fault 0x23).trans (by rw [hx hk, Option.getD_some])

theorem State.faulted_abandonAll : s.abandonAll.fseq.Faulted f code :=
  List.foldlRecOn (motive := fun t : State => t.fseq.Faulted f code) _ _ h
    fun _ ht x hx => State.faulted_abandonOne ht (h.fault x (List.mem_filter.mp hx).1)

theorem State.faulted_faultEffect (g task c : Nat) (k : Option (UnitId × Fin 2)) : (s.faultEffect g task c k).fseq.Faulted f code := by
  unfold State.faultEffect
  cases faultClass c with
  | refused =>
    dsimp only
    split
    · exact State.faulted_unfit (s := s.onBus _) h _ _
    · exact State.faulted_degrade (s := s.onBus _) h _
  | stop =>
    cases k with
    | none => exact State.faulted_abandonAll (s := s.onBus _) h
    | some k => exact h.congr rfl
  | continue' =>
    dsimp only
    split
    · exact State.faulted_unfit h _ _
    · exact h
  | frame => exact State.faulted_abandonAll h

theorem State.faulted_reports (g task unit step : Nat) (k : Option (UnitId × Fin 2)) (codes : List Nat) :
    (s.reports g task unit step k codes).fseq.Faulted f code := by
  refine List.foldlRecOn (motive := fun t : State => t.fseq.Faulted f code) _ _ h fun t ht c _ => State.faulted_faultEffect ?_ _ _ _ _
  exact ht.modFrame (k := g) (g := (·.note c)) (fun _ hy => hy) fun y _ hy => (y.note_fault c).trans (by rw [hy, Option.getD_some])

end

/-- R144: the first of the faults reported for an open frame that has none is the frame's first fault. -/
theorem State.faulted_reports_first {s : State} {f : Nat} (task unit step : Nat) (k : Option (UnitId × Fin 2)) (code : Nat)
    (codes : List Nat) (ho : ∃ y ∈ s.fseq.openFrames, y.frame = f) (hf : ∀ y ∈ s.fseq.openFrames, y.frame = f → y.fault = none) :
    (s.reports f task unit step k (code :: codes)).fseq.Faulted f code := by
  refine State.faulted_reports (State.faulted_faultEffect ?_ _ _ _ _) _ _ _ _ _ _
  refine FrameSeq.faulted_modFrame ho (g := (·.note code)) (fun _ hy => hy) fun y hy hyf => ?_
  rw [if_pos hyf, y.note_fault, hf y hy hyf, Option.getD_none]

/-- R144: the first of the codes that a task of a frame without a fault stops with is the frame's first fault. -/
theorem State.stopTask_faulted {s : State} {x : Ctx} (u : UnitId) (p : Fin 2) (fr : OpenFrame) (code : Nat) (codes : List Nat)
    (ho : ∃ y ∈ s.fseq.openFrames, y.frame = x.frame) (hf : ∀ y ∈ s.fseq.openFrames, y.frame = x.frame → y.fault = none) :
    (s.stopTask u p x fr (code :: codes)).fseq.Faulted x.frame code := by
  rw [← s.openFrames_stopCtx u p] at ho hf
  exact State.faulted_reports_first _ _ _ _ code codes ho hf

-- Steps whose plan checks fail (R101, R144) -----------------------------------------------------------------------------------------------------

/-- The frame of a context that may issue is open. -/
theorem State.frame_of_live {s : State} {u : UnitId} {p : Fin 2} {x : Ctx} {fr : OpenFrame} (h : s.live u p = some (x, fr)) :
    s.fseq.frame x.frame = some fr := by
  unfold State.live at h
  split at h
  · cases h
  · split at h
    · cases h
    · rename_i hfr
      split at h
      · cases h
      · obtain ⟨rfl, rfl⟩ := Prod.mk.inj (Option.some.inj h)
        exact hfr

/-- A step command whose run leaves no access to be performed, and a context with no signals due, changes no memory and nothing of the
frame sequencer beyond its run. -/
theorem taskStep_undue_fseq {u : UnitId} {p : Fin 2} {run : State → Host.Outcome State Fault Refusal} {s t : State} {x y : Ctx}
    {fr : OpenFrame} (h : s.live u p = some (x, fr)) (hr : run (s.seen u) = .next t) (hl : t.bus.late = []) (hy : t.ctx u p = some y)
    (hd : y.due = none) : ∃ r, taskStep u p run s = .next r ∧ r.bus.mem = t.bus.mem ∧ r.fseq = t.fseq := by
  have hview : t.Still (t.onBus (fun b => { b with view := s.bus.view })) := ⟨⟨rfl, rfl⟩, rfl⟩
  have hfree := hview.trans (State.still_freeDrained _ u p (x.tags ++ x.owed))
  refine ⟨_, taskStep_runs u p run s t x fr h hr, ?_⟩
  rw [State.settle_done _ _ _ (hview.bus.late.trans hl), State.afterStep_waits u p _ _ y ((hfree.ctx u p).trans hy) (.inl hd)]
  exact ⟨hfree.bus.mem, State.fseq_freeDrained _ u p _⟩

/-- R101: a step whose plan checks fail stops its task with their codes before anything else. -/
theorem issueStep_unplanned {o : UnitOp} {e : StepEnv} {s : State} (p : Fin 2) {code : Nat} {codes : List Nat}
    (hp : o.pre e s = code :: codes) : issueStep o e p s = s.stopTask e.u p e.x e.fr (code :: codes) := by
  rw [issueStep, hp]
  exact if_pos (List.cons_ne_nil _ _)

theorem unplannedStep_stops {c : Instr} {o : UnitOp} {u : UnitId} {p : Fin 2} {s : State} {x : Ctx} {fr : OpenFrame} {d : StepD}
    {code : Nat} {codes : List Nat} (hc : StepCommand p c o u) (hr : (s.seen u).readyStep u p x fr d) (hsel : o.sel d = true)
    (hready : o.ready (stepEnv u x fr d) (s.seen u) = true)
    (hpre : o.pre (stepEnv u x fr d) ((s.seen u).startTok u p x) = code :: codes) :
    Completes c s fun t => (t.ctx u p).map (fun y => (y.stopped, y.step)) = some (true, x.step) ∧ SameMem s t
      ∧ (fr.fault = none → (∀ y ∈ s.fseq.openFrames, y.frame = x.frame → y = fr) →
          (t.fseq.frame x.frame).bind (·.fault) = some code) := by
  obtain ⟨hctx, hdue⟩ := State.ctx_of_live hr.live
  obtain ⟨hstart, hstill⟩ := State.startTok_starts hctx
  have hissue := (runStep_ready hr hsel hready).trans (issueStep_unplanned p hpre)
  obtain ⟨hstop, hy⟩ := State.stopTask_stops x fr (code :: codes) hstart
  have hall := hstill.trans hstop
  obtain ⟨r, hexec, hmem, hfseq⟩ := taskStep_undue_fseq (run := fun v => .next (runStep u p o v)) (s := s) hr.live (congrArg _ hissue)
    (hall.late.trans hr.up.late_nil) hy hdue
  refine ⟨r, (hc s x fr d hr hsel hready).trans hexec, ?_, sameMem_of_mem (hmem.trans hall.mem), fun hnone hone => ?_⟩
  · rw [State.ctx, hfseq]
    exact congrArg (Option.map fun y => (y.stopped, y.step)) hy
  · have hopen := (s.seen u).openFrames_startTok u p x
    have hfr := State.frame_of_live hr.live
    rw [hfseq]
    refine (State.stopTask_faulted (x := x) u p fr code codes ?_ fun y hm hyf => ?_).frame_fault
    · rw [hopen]
      exact ⟨fr, List.mem_of_find?_eq_some hfr, by simpa using List.find?_some hfr⟩
    · rw [hopen] at hm
      rw [hone y hm hyf, hnone]

-- Tables more than half full (R189) -------------------------------------------------------------------------------------------------------------

theorem rbRoom_overfilled {e : StepEnv} (h : 2 ^ ((rbKernel e).tlog - 1) < e.first + e.dim 0) : rbRoom e = [0x0B] := if_pos h

/-- Settles O26: both operations check the table's room before their operands, and the code of that check is the frame's first fault. -/
theorem stepsThatWouldOverfillATableStop : Obligations.StepsThatWouldOverfillATableStop := by
  unfold Obligations.StepsThatWouldOverfillATableStop
  intro s q p x fr d hr hena e hover hunit stopped
  have hroom := rbRoom_overfilled hover
  refine ⟨fun hop => ?_, fun hop => ?_⟩
  · exact unplannedStep_stops (o := opRbInsert q) (stepCommand_of_exec fun _ => rfl) hr (by simp [opRbInsert, rbUnit, hunit, hop]) hena hroom
  · exact unplannedStep_stops (o := opRbMark q) (stepCommand_of_exec fun _ => rfl) hr (by simp [opRbMark, rbUnit, hunit, hop]) hena hroom

end Sys2Proof.Machine
end
